-- ==== Sys2Proof/Word.lean ====
section
/-! DEFINITION. The value types of the CORE: bytes and words, tree cells and trees, palette entries,
rectangles and samples (00_scope.md R6, 10_state.md R24 to R26, R31). Data only; what is done with it
stands under Machine/. -/

namespace Sys2Proof

/-- u8. -/
abbrev Byte := BitVec 8

/-- u16. -/
abbrev Half := BitVec 16

/-- u32. -/
abbrev Word := BitVec 32

/-- Three like things indexed 0..2: markers, MRU slots, SET flags (10_state.md R25). -/
structure Tri (α : Type) where
  j0 : α
  j1 : α
  j2 : α
deriving DecidableEq, Repr, Inhabited

/-- Element `j` of three. -/
def Tri.get {α : Type} (t : Tri α) : Fin 3 → α
  | 0 => t.j0
  | 1 => t.j1
  | 2 => t.j2

/-- `x[j] <- v` on three. -/
def Tri.set {α : Type} (t : Tri α) (v : α) : Fin 3 → Tri α
  | 0 => { t with j0 := v }
  | 1 => { t with j1 := v }
  | 2 => { t with j2 := v }

/-- A tree node cell (10_state.md R24). `internal r` holds the node count `r` of its left subtree
(90_conflicts.md C1); `r` is a natural because index arithmetic is unbounded (48_machine_laws.md R471). -/
inductive Node (w : Nat) where
  | leaf (v : BitVec w)
  | internal (r : Nat)
deriving DecidableEq, Repr, Inhabited

/-- One prefix-table entry: PFX_NODE[k] and PFX_LEN[k] (10_state.md R25, R26). -/
structure PfxEntry where
  node : Nat
  len : Nat
deriving DecidableEq, Repr, Inhabited

/-- A byte tree (10_state.md R26). N is the length of `nodes`. -/
structure ByteTree where
  empty : Bool
  nodes : List (Node 8)
  pfx : List PfxEntry
deriving DecidableEq, Repr, Inhabited

/-- A word tree WT[k] (10_state.md R25). N is the length of `nodes`. -/
structure WordTree where
  built : Bool
  empty : Bool
  nodes : List (Node 16)
  pfx : List PfxEntry
  mark : Tri Half
  slot : Tri Nat
deriving DecidableEq, Repr, Inhabited

/-- A palette entry, a triple of u8 in the order R, G, B (10_state.md R31). -/
structure Rgb where
  r : Byte
  g : Byte
  b : Byte
deriving DecidableEq, Repr, Inhabited

/-- A dirty rectangle (44_dirty_rect.md R295): left and top inclusive, right and bottom exclusive. -/
structure Rect where
  left : Word
  top : Word
  right : Word
  bottom : Word
deriving DecidableEq, Repr, Inhabited

/-- An output sample: u8 in the sink's unsigned convention, or a u16 bit pattern (46_audio.md R348). -/
inductive Sample where
  | s8 (v : Byte)
  | s16 (v : Half)
deriving DecidableEq, Repr, Inhabited

/-- The two values of PCM16_OUT_ORDER (00_scope.md R4). -/
inductive ByteOrder where
  | le
  | be
deriving DecidableEq, Repr, Inhabited

/-- The 256 zero entries every construction starts from (41_byte_tree.md R170, 42_word_tree.md R200). -/
def zeroPfx : List PfxEntry := List.replicate 256 { node := 0, len := 0 }

end Sys2Proof
end

