-- ==== Sys2Proof/Syntax.lean ====
section
/-! DEFINITION. The instructions of the CORE: one constructor of `Instr` per row of
spec/opcode_table.json. 10_state.md R21 names the two kinds: host commands, and the bitstream syntax
elements the commands decode; the micro-operations they are built from are the table's MICRO rows. -/

namespace Sys2Proof

/-- The decoder sub-version (00_scope.md R2, R4). -/
inductive SubVer where
  | v2
  | v4
deriving DecidableEq, Repr, Inhabited

/-- The four persistent word trees MMAP, MCLR, FULL, TYPE (10_state.md R25). -/
inductive TreeId where
  | mmap
  | mclr
  | full
  | typ
deriving DecidableEq, Repr, Inhabited

/-- The byte trees a running command can hold (10_state.md R26, R33): LO and HI of a word tree's
construction, AT[0..3] of an audio chunk. -/
inductive BtId where
  | lo
  | hi
  | at0
  | at1
  | at2
  | at3
deriving DecidableEq, Repr, Inhabited

/-- The four signature bytes of CONFIGURE, in file order (30_encoding.md R91). -/
structure Sig where
  b0 : Byte
  b1 : Byte
  b2 : Byte
  b3 : Byte
deriving DecidableEq, Repr, Inhabited

/-- The operands of CONFIGURE (30_encoding.md R91, 47_host_interface.md R380). -/
structure ConfigOps where
  sig : Sig
  w : Word
  h : Word
  flags : Word
  szMmap : Word
  szMclr : Word
  szFull : Word
  szType : Word
  audio : Vector Word 7
deriving DecidableEq, Repr, Inhabited

/-- One constructor per row of spec/opcode_table.json. A buffer operand is its bytes; LEN is their
number (30_encoding.md R90). -/
inductive Instr where
  -- CMD32, 30_encoding.md R91 and R95
  | configure (ops : ConfigOps)
  | buildTrees (blob : List Byte)
  | decodeFrame (vid : List Byte)
  | unpackPalette (chunk : List Byte)
  | decodeAudio (track : BitVec 3) (chunk : List Byte) (unpacked : Word)
  | getDirtyRect
  | ackPalette
  | reservedCmd (cmd : Word)
  -- TYPE16, 30_encoding.md R102
  | blkMono (runidx : BitVec 6) (color : Byte)
  | blkFull (runidx : BitVec 6) (color : Byte)
  | blkSkip (runidx : BitVec 6) (color : Byte)
  | blkFill (runidx : BitVec 6) (color : Byte)
  -- FULLSEL, 30_encoding.md R104
  | fullV2
  | fullV4M1
  | fullV4M2
  | fullV4M0
  -- PALCTL8, 30_encoding.md R107
  | palSkip (n : BitVec 7)
  | palCopy (n : BitVec 6)
  | palLit (r6 : BitVec 6)
  -- BYTETREE, 30_encoding.md R98
  | btEmpty (dst : BtId)
  | btPresent (dst : BtId)
  | bnodeLeaf (dst : BtId)
  | bnodeInternal (dst : BtId)
  -- WORDTREE, 30_encoding.md R99
  | wtEmpty (k : TreeId)
  | wtPresent (k : TreeId)
  | wnodeLeaf (k : TreeId)
  | wnodeInternal (k : TreeId)
  -- AUDIOHDR, 30_encoding.md R108
  | audAbsent
  | audPresent
  -- MICRO, 40_bitcursor.md, 41_byte_tree.md, 42_word_tree.md
  | readBit
  | readBits (n : Nat)
  | peek8
  | skip (n : Nat)
  | byteBuild (dst : BtId)
  | byteGetcode (src : BtId)
  | wordBuild (k : TreeId)
  | wordGetcode (k : TreeId)
  | wordReset (k : TreeId)
deriving DecidableEq, Repr

end Sys2Proof
end

