-- ==== Sys2Proof/Config.lean ====
section
/-! DEFINITION. The free values of the model: opaque constants with no body, so that no proof can see
what they are and every claim holds whatever they are. The OPEN parameters are 00_scope.md R4 and R38;
the contents after a fatal error are 60_exceptions.md R402. -/

namespace Sys2Proof

/-- BYTE_CAP, the node capacity of every byte tree (00_scope.md R4, 41_byte_tree.md R174). -/
def Config.byteCap : Nat := 511

/-- INIT_SURFACE: the value pixel `y·W + x` reads after CONFIGURE and before any command writes it
(00_scope.md R4, 70_reset_and_hazards.md R444; log 5). -/
opaque Config.initSurface : Nat → Byte

/-- INIT_PALETTE: the value entry `e` reads after CONFIGURE and before any command writes it
(00_scope.md R4, 70_reset_and_hazards.md R444; log 5). -/
opaque Config.initPalette : Nat → Rgb

/-- PCM16_OUT_ORDER: the byte order of a serialised 16-bit sample (46_audio.md R348; log 7). -/
opaque Config.pcm16OutOrder : ByteOrder

/-- Content of S after the `n`-th fatal error (60_exceptions.md R402; log 6). -/
opaque Config.failedSurface : Nat → Nat → Byte

/-- Content of PAL after the `n`-th fatal error (60_exceptions.md R402; log 6). -/
opaque Config.failedPalette : Nat → Nat → Rgb

/-- PAL_DIRTY after the `n`-th fatal error (60_exceptions.md R402; log 6). -/
opaque Config.failedPalDirty : Nat → Bool

/-- DIRTY, as its set block indices, after the `n`-th fatal error (60_exceptions.md R402; log 6). -/
opaque Config.failedDirty : Nat → List Nat

/-- SCAN after the `n`-th fatal error (60_exceptions.md R402; log 6). -/
opaque Config.failedScan : Nat → Nat

/-- The word trees after the `n`-th fatal error (60_exceptions.md R402; log 6). -/
opaque Config.failedTree : Nat → TreeId → WordTree

/-- What a read gives where no rule reads: NODE at an index at or past N, or the value of an Internal
cell (10_state.md R39; log 9). -/
opaque Config.noValue : Nat → Half

/-- A RECT coordinate that does not fit its u32 field (44_dirty_rect.md R290; log 8). -/
opaque Config.wideCoord : Nat → Word

end Sys2Proof
end

