-- ==== Sys2Proof/WellFormed.lean ====
section
/-! DEFINITION. Which terms of `Instr` are instructions of the CORE: the operand ranges that the spec
gives and the types of Syntax.lean do not already carry. -/

namespace Sys2Proof

/-- A command word that R95 reserves: OPC = 0x00 or 0x08 to 0xFF, or CMD[31:8] not 0
(30_encoding.md R95). -/
def reservedWord (cmd : Word) : Bool :=
  cmd.extractLsb' 0 8 == 0#8 || decide (8 ≤ (cmd.extractLsb' 0 8).toNat) || cmd.extractLsb' 8 24 != 0#24

/-- LEN is a u32 (30_encoding.md R90). -/
def bufferFits (buf : List Byte) : Bool := decide (buf.length < 2 ^ 32)

/-- The operands are in the ranges the spec gives: a buffer's LEN is a u32 (30_encoding.md R90),
READ_BITS has 0 ≤ n ≤ 16 (40_bitcursor.md R143), and RESERVED_CMD stands for reserved words only
(30_encoding.md R95). TRACK = 7 is well-formed: the command refuses it (46_audio.md R341). -/
def Instr.wf : Instr → Bool
  | .configure _ => true
  | .buildTrees blob => bufferFits blob
  | .decodeFrame vid => bufferFits vid
  | .unpackPalette chunk => bufferFits chunk
  | .decodeAudio _ chunk _ => bufferFits chunk
  | .getDirtyRect => true
  | .ackPalette => true
  | .reservedCmd cmd => reservedWord cmd
  | .blkMono _ _ => true
  | .blkFull _ _ => true
  | .blkSkip _ _ => true
  | .blkFill _ _ => true
  | .fullV2 => true
  | .fullV4M1 => true
  | .fullV4M2 => true
  | .fullV4M0 => true
  | .palSkip _ => true
  | .palCopy _ => true
  | .palLit _ => true
  | .btEmpty _ => true
  | .btPresent _ => true
  | .bnodeLeaf _ => true
  | .bnodeInternal _ => true
  | .wtEmpty _ => true
  | .wtPresent _ => true
  | .wnodeLeaf _ => true
  | .wnodeInternal _ => true
  | .audAbsent => true
  | .audPresent => true
  | .readBit => true
  | .readBits n => decide (n ≤ 16)
  | .peek8 => true
  | .skip _ => true
  | .byteBuild _ => true
  | .byteGetcode _ => true
  | .wordBuild _ => true
  | .wordGetcode _ => true
  | .wordReset _ => true

end Sys2Proof
end

