-- ==== Sys2Proof/Decode.lean ====
section
/-! DEFINITION. Decoder and encoder (30_encoding.md). What the decoder reads depends on where the CORE
stands: the command port (R90), a type code from the TYPE tree (R102), a palette control byte (R107),
or stream bits in one of the grammars of R98, R99, R104, R108. `Encoded` carries that place with the
bits. The MICRO rows have no bit pattern (40_bitcursor.md), so no encoding decodes to them. -/

namespace Sys2Proof

/-- The operand record of a command (30_encoding.md R90, R91): every command's fields by name; a
command reads its own and ignores the rest. -/
structure OperandRecord where
  conf : ConfigOps
  buf : List Byte
  track : BitVec 3
  unpacked : Word
deriving DecidableEq, Repr, Inhabited

/-- The operand record whose every field is 0 and whose buffer is empty. -/
def OperandRecord.zero : OperandRecord :=
  { conf :=
      { sig := { b0 := 0, b1 := 0, b2 := 0, b3 := 0 }
        w := 0, h := 0, flags := 0, szMmap := 0, szMclr := 0, szFull := 0, szType := 0
        audio := Vector.replicate 7 0 }
    buf := [], track := 0, unpacked := 0 }

/-- What the port holds: a command word and its operand record (30_encoding.md R90, R92). -/
structure Command where
  cmd : Word
  ops : OperandRecord
deriving DecidableEq, Repr, Inhabited

/-- The places in a bitstream where one or two bits select an operation. -/
inductive BitPlace where
  | fullSel (sv : SubVer)   -- 30_encoding.md R104
  | btHeader (dst : BtId)   -- 30_encoding.md R98, ByteTree
  | btNode (dst : BtId)     -- 30_encoding.md R98, BNode
  | wtHeader (k : TreeId)   -- 30_encoding.md R99, WordTree
  | wtNode (k : TreeId)     -- 30_encoding.md R99, WNode
  | audHeader               -- 30_encoding.md R108
deriving DecidableEq, Repr, Inhabited

/-- An encoding together with the place it is read at. -/
inductive Encoded where
  | command (c : Command)
  | typeCode (t : Half)
  | palByte (ctl : Byte)
  | bits (place : BitPlace) (bs : List Bool)
deriving DecidableEq, Repr

/-- Why an encoding decodes to nothing: fewer bits than the selector of its place has. The CORE never
meets it, since a cursor supplies zero bits past the end (40_bitcursor.md R141). -/
inductive DecodeError where
  | tooFewBits
deriving DecidableEq, Repr

/-- The command word (30_encoding.md R91, R95), with the operands that R91 names for it. -/
def decodeCommand (c : Command) : Instr :=
  if reservedWord c.cmd then .reservedCmd c.cmd else
  match (c.cmd.extractLsb' 0 8).toNat with
  | 1 => .configure c.ops.conf
  | 2 => .buildTrees c.ops.buf
  | 3 => .decodeFrame c.ops.buf
  | 4 => .unpackPalette c.ops.buf
  | 5 => .decodeAudio c.ops.track c.ops.buf c.ops.unpacked
  | 6 => .getDirtyRect
  | 7 => .ackPalette
  | _ => .reservedCmd c.cmd

/-- TYPE16 (30_encoding.md R102): KIND = T[1:0], RUNIDX = T[7:2], COLOR = T[15:8]. -/
def decodeTypeCode (t : Half) : Instr :=
  match (t.extractLsb' 0 2).toNat with
  | 0 => .blkMono (t.extractLsb' 2 6) (t.extractLsb' 8 8)
  | 1 => .blkFull (t.extractLsb' 2 6) (t.extractLsb' 8 8)
  | 2 => .blkSkip (t.extractLsb' 2 6) (t.extractLsb' 8 8)
  | _ => .blkFill (t.extractLsb' 2 6) (t.extractLsb' 8 8)

/-- PALCTL8 (30_encoding.md R107), most specific first: ctl[7] = 1, else ctl[6] = 1, else a literal. -/
def decodePalByte (ctl : Byte) : Instr :=
  if ctl.getLsbD 7 then .palSkip (ctl.extractLsb' 0 7)
  else if ctl.getLsbD 6 then .palCopy (ctl.extractLsb' 0 6)
  else .palLit (ctl.extractLsb' 0 6)

/-- The stream-bit selectors, first-read bit first (30_encoding.md R98, R99, R104, R108). -/
def decodeBits : BitPlace → List Bool → Except DecodeError Instr
  | .fullSel .v2, _ => .ok .fullV2
  | .fullSel .v4, true :: _ => .ok .fullV4M1
  | .fullSel .v4, false :: true :: _ => .ok .fullV4M2
  | .fullSel .v4, false :: false :: _ => .ok .fullV4M0
  | .btHeader dst, false :: _ => .ok (.btEmpty dst)
  | .btHeader dst, true :: _ => .ok (.btPresent dst)
  | .btNode dst, false :: _ => .ok (.bnodeLeaf dst)
  | .btNode dst, true :: _ => .ok (.bnodeInternal dst)
  | .wtHeader k, false :: _ => .ok (.wtEmpty k)
  | .wtHeader k, true :: _ => .ok (.wtPresent k)
  | .wtNode k, false :: _ => .ok (.wnodeLeaf k)
  | .wtNode k, true :: _ => .ok (.wnodeInternal k)
  | .audHeader, false :: _ => .ok .audAbsent
  | .audHeader, true :: _ => .ok .audPresent
  | _, _ => .error .tooFewBits

/-- The decoder: total, and a rejection has a name. -/
def decode : Encoded → Except DecodeError Instr
  | .command c => .ok (decodeCommand c)
  | .typeCode t => .ok (decodeTypeCode t)
  | .palByte ctl => .ok (decodePalByte ctl)
  | .bits place bs => decodeBits place bs

/-- A command word with the given operand record. -/
def commandWord (opc : Nat) (ops : OperandRecord) : Encoded :=
  .command { cmd := BitVec.ofNat 32 opc, ops := ops }

/-- T from its fields: COLOR in T[15:8], RUNIDX in T[7:2], KIND in T[1:0] (30_encoding.md R102). -/
def packTypeCode (kind : BitVec 2) (runidx : BitVec 6) (color : Byte) : Half :=
  color ++ (runidx ++ kind)

/-- The encoder: the encoding of a well-formed instruction, from the same tables (30_encoding.md R91,
R102, R104, R107, R98, R99, R108). A MICRO row has none. -/
def encode : Instr → Option Encoded
  | .configure ops => some (commandWord 1 { OperandRecord.zero with conf := ops })
  | .buildTrees blob => some (commandWord 2 { OperandRecord.zero with buf := blob })
  | .decodeFrame vid => some (commandWord 3 { OperandRecord.zero with buf := vid })
  | .unpackPalette chunk => some (commandWord 4 { OperandRecord.zero with buf := chunk })
  | .decodeAudio track chunk unpacked =>
    some (commandWord 5 { OperandRecord.zero with track := track, buf := chunk, unpacked := unpacked })
  | .getDirtyRect => some (commandWord 6 OperandRecord.zero)
  | .ackPalette => some (commandWord 7 OperandRecord.zero)
  | .reservedCmd cmd => some (.command { cmd := cmd, ops := OperandRecord.zero })
  | .blkMono runidx color => some (.typeCode (packTypeCode 0 runidx color))
  | .blkFull runidx color => some (.typeCode (packTypeCode 1 runidx color))
  | .blkSkip runidx color => some (.typeCode (packTypeCode 2 runidx color))
  | .blkFill runidx color => some (.typeCode (packTypeCode 3 runidx color))
  | .fullV2 => some (.bits (.fullSel .v2) [])
  | .fullV4M1 => some (.bits (.fullSel .v4) [true])
  | .fullV4M2 => some (.bits (.fullSel .v4) [false, true])
  | .fullV4M0 => some (.bits (.fullSel .v4) [false, false])
  | .palSkip n => some (.palByte (1#1 ++ n))
  | .palCopy n => some (.palByte (1#2 ++ n))
  | .palLit r6 => some (.palByte (0#2 ++ r6))
  | .btEmpty dst => some (.bits (.btHeader dst) [false])
  | .btPresent dst => some (.bits (.btHeader dst) [true])
  | .bnodeLeaf dst => some (.bits (.btNode dst) [false])
  | .bnodeInternal dst => some (.bits (.btNode dst) [true])
  | .wtEmpty k => some (.bits (.wtHeader k) [false])
  | .wtPresent k => some (.bits (.wtHeader k) [true])
  | .wnodeLeaf k => some (.bits (.wtNode k) [false])
  | .wnodeInternal k => some (.bits (.wtNode k) [true])
  | .audAbsent => some (.bits .audHeader [false])
  | .audPresent => some (.bits .audHeader [true])
  | .readBit => none
  | .readBits _ => none
  | .peek8 => none
  | .skip _ => none
  | .byteBuild _ => none
  | .byteGetcode _ => none
  | .wordBuild _ => none
  | .wordGetcode _ => none
  | .wordReset _ => none

/-- The encoding whose bits are `w`, for the three formats whose words have a width of their own: a
32-bit command word with operand words of zeros, a 16-bit type code, an 8-bit palette control byte.
The formats of one or two stream bits have no width in whole bytes and share their patterns, so no
word of theirs can be told apart here (log 12). -/
def tableEncoding (nbits w : Nat) : Option Encoded :=
  if nbits = 32 then some (.command { cmd := BitVec.ofNat 32 w, ops := OperandRecord.zero })
  else if nbits = 16 then some (.typeCode (BitVec.ofNat 16 w))
  else if nbits = 8 then some (.palByte (BitVec.ofNat 8 w))
  else none

/-- The instruction the decoder reads from a word of the opcode table of `nbits` bits (log 12). -/
def decodeTableWord (nbits w : Nat) : Option Instr :=
  match tableEncoding nbits w with
  | none => none
  | some e =>
    match decode e with
    | .ok i => some i
    | .error _ => none

end Sys2Proof
end

