-- ==== Sys2Proof/Machine/State.lean ====
section
/-! DEFINITION. The state of the CORE (10_state.md), as plain data, and its value right after reset
(10_state.md R40, 70_reset_and_hazards.md R440). INVENTORY.md lists every field with its rule. -/

namespace Sys2Proof.Machine

/-- PHASE (10_state.md R20). -/
inductive Phase where
  | unconfigured
  | configured
  | ready
  | failed
deriving DecidableEq, Repr, Inhabited

/-- STATUS.CODE (30_encoding.md R93). -/
inductive Code where
  | ok
  | formatError
  | dataTruncated
  | consistencyError
  | unsupportedFeature
  | refused
deriving DecidableEq, Repr, Inhabited

/-- STATUS.CAUSE, the complete list of 60_exceptions.md R401. -/
inductive Cause where
  | none
  | illegalCommand
  | wrongPhase
  | badTrack
  | audioNotCompressed
  | badSignature
  | bootstrapOverrun
  | palLen
  | palTrunc
  | audioOverrun
  | frameOverrun
  | byteTreeCapacity
  | wordTreeCapacity
  | palOvershoot
  | palCopyRange
  | audioConfig
  | audioSize
  | unsupportedRdft
  | unsupportedDct
deriving DecidableEq, Repr, Inhabited

/-- STATUS (10_state.md R22). -/
structure Status where
  code : Code
  cause : Cause
deriving DecidableEq, Repr, Inhabited

/-- The configuration registers (10_state.md R23). D, BW, BH, NB and CAP_k are functions of these
(Operands.lean; log 21). -/
structure Cfg where
  subver : SubVer
  w : Word
  h : Word
  flags : Word
  szMmap : Word
  szMclr : Word
  szFull : Word
  szType : Word
  audio : Vector Word 7
deriving DecidableEq, Repr, Inhabited

/-- What an index that no cell lists reads as: the initial content of CONFIGURE, or the unspecified
content after the `n`-th fatal error (70_reset_and_hazards.md R444, 60_exceptions.md R402). -/
inductive Base where
  | init
  | failed (n : Nat)
deriving DecidableEq, Repr, Inhabited

/-- A storage space indexed by naturals: the cells written since its base was laid, strictly rising by
index (`Memory.wf`), over that base (20_memory.md R60; log 16). -/
structure Memory (α : Type) where
  base : Base
  cells : List (Nat × α)
deriving DecidableEq, Repr, Inhabited

/-- The space with no cell written over base `b`. -/
def Memory.blank {α : Type} (b : Base) : Memory α := { base := b, cells := [] }

/-- The four persistent word trees (10_state.md R25). -/
structure Trees where
  mmap : WordTree
  mclr : WordTree
  full : WordTree
  typ : WordTree
deriving DecidableEq, Repr, Inhabited

/-- A bit cursor (10_state.md R27). LEN is the length of `buf`. -/
structure Cursor where
  buf : List Byte
  pos : Nat
  ovr : Bool
deriving DecidableEq, Repr, Inhabited

/-- The working state of the running command (10_state.md R26, R27, R33 and the local variables of the
command rules). It is `Work.idle` whenever no command runs; log 10. -/
structure Work where
  /-- The command's cursor; its buffer is also the palette chunk B. -/
  cur : Cursor
  lo : ByteTree
  hi : ByteTree
  at0 : ByteTree
  at1 : ByteTree
  at2 : ByteTree
  at3 : ByteTree
  /-- Position (prefix, len) of the node under construction (41_byte_tree.md R171). -/
  codePfx : Nat
  codeLen : Nat
  /-- Node count the last node construction returned (41_byte_tree.md R171). -/
  count : Nat
  /-- SET[0..2] (42_word_tree.md R200). -/
  marked : Tri Bool
  /-- T, blk, the blocks left in the run, and the Full mode (43_frame_decoder.md R241). -/
  tcode : Half
  blk : Nat
  run : Nat
  mode : Nat
  /-- len, p, e and OLD of UNPACK_PALETTE (45_palette.md R310). -/
  palLen : Nat
  palPos : Nat
  palEntry : Nat
  old : Memory Rgb
  /-- TRACK, UNPACKED, BASE, OUT and OUTB of DECODE_AUDIO (46_audio.md R340, 10_state.md R33). -/
  track : BitVec 3
  unpacked : Word
  base0 : Half
  base1 : Half
  samples : List Sample
  outb : Nat
  /-- The result of the last micro-operation (40_bitcursor.md R142 to R144, 41_byte_tree.md R176,
  42_word_tree.md R206). -/
  res : Half
deriving DecidableEq, Repr, Inhabited

/-- Where the sequencer fetches next: the command port, or a syntax element of the running command at
the working state (10_state.md R21; log 10). -/
inductive Expect where
  | command
  | blockRun
  | palRecord
  | fullSel
  | btHeader (dst : BtId)
  | btNode (dst : BtId)
  | wtHeader (k : TreeId)
  | wtNode (k : TreeId)
  | audHeader
deriving DecidableEq, Repr, Inhabited

/-- The machine. -/
structure State where
  phase : Phase
  status : Status
  cfg : Cfg
  wt : Trees
  surf : Memory Byte
  dirty : List Nat
  scan : Nat
  pal : Memory Rgb
  palDirty : Bool
  consumed : Word
  rect : Option Rect
  out : List Sample
  outRate : BitVec 24
  port : Option Command
  resetPin : Bool
  work : Work
  expect : Expect
  fails : Nat
deriving DecidableEq, Repr, Inhabited

/-- Why a step stops with a fault. -/
inductive Fault where
  /-- Raised by `step` alone, when the command at the port is not well-formed: its buffer has 2^32 bytes
  or more, which no operand record can say, LEN being a u32 (30_encoding.md R90). Safe: the machine
  stops where the spec has no behaviour (log 13). -/
  | operandTooLong
deriving DecidableEq, Repr

/-- Why a step is refused. -/
inductive Refusal where
  /-- An instruction that has no meaning in this model; raised by `exec`'s arms alone. Safe. No arm
  raises it: every row of the opcode table has its meaning. -/
  | notModelled (mnemonic : String)
  /-- Raised by `step` alone, when the bits fetched decode to nothing. Safe. No state raises it, since a
  cursor supplies zero bits past the end of its buffer (40_bitcursor.md R141). -/
  | notDecoded (e : DecodeError)
deriving DecidableEq, Repr

/-- The empty byte tree with zero fields. -/
def emptyByteTree : ByteTree := { empty := true, nodes := [], pfx := zeroPfx }

/-- The word tree of State.reset: not built; the other fields, which the spec leaves unspecified
(10_state.md R40), are an empty tree with zero fields (log 2). -/
def unbuiltWordTree : WordTree :=
  { built := false, empty := true, nodes := [], pfx := zeroPfx
    mark := { j0 := 0, j1 := 0, j2 := 0 }, slot := { j0 := 0, j1 := 0, j2 := 0 } }

/-- The working state when no command runs (log 10). -/
def Work.idle : Work :=
  { cur := { buf := [], pos := 0, ovr := false }
    lo := emptyByteTree, hi := emptyByteTree
    at0 := emptyByteTree, at1 := emptyByteTree, at2 := emptyByteTree, at3 := emptyByteTree
    codePfx := 0, codeLen := 0, count := 0
    marked := { j0 := false, j1 := false, j2 := false }
    tcode := 0, blk := 0, run := 0, mode := 0
    palLen := 0, palPos := 0, palEntry := 0, old := Memory.blank .init
    track := 0, unpacked := 0, base0 := 0, base1 := 0, samples := [], outb := 0
    res := 0 }

/-- The configuration registers of State.reset, which the spec leaves unspecified (log 1). -/
def Cfg.zero : Cfg :=
  { subver := .v2, w := 0, h := 0, flags := 0, szMmap := 0, szMclr := 0, szFull := 0, szType := 0
    audio := Vector.replicate 7 0 }

/-- The machine right after reset (10_state.md R40, 70_reset_and_hazards.md R440): PHASE UNCONFIGURED,
STATUS (OK, NONE), no tree built, the port idle. The fields the spec gives no reset value for hold the
values of logs 1 to 4, 6, 10 and 14. -/
def State.reset : State :=
  { phase := .unconfigured
    status := { code := .ok, cause := .none }
    cfg := Cfg.zero
    wt := { mmap := unbuiltWordTree, mclr := unbuiltWordTree, full := unbuiltWordTree, typ := unbuiltWordTree }
    surf := Memory.blank .init
    dirty := []
    scan := 0
    pal := Memory.blank .init
    palDirty := false
    consumed := 0
    rect := none
    out := []
    outRate := 0
    port := none
    resetPin := false
    work := Work.idle
    expect := .command
    fails := 0 }

end Sys2Proof.Machine
end

