-- ==== Sys2Proof/Machine/Flags.lean ====
section
/-! DEFINITION. The flags of the CORE (10_state.md R36) and the numbers of STATUS: the class and
fatality of a cause, the cursor's OVR, and the DIRTY bits. -/

namespace Sys2Proof.Machine

/-- The class of a cause (60_exceptions.md R401). -/
def Cause.code : Cause → Code
  | .none => .ok
  | .illegalCommand => .refused
  | .wrongPhase => .refused
  | .badTrack => .refused
  | .audioNotCompressed => .refused
  | .badSignature => .formatError
  | .bootstrapOverrun => .dataTruncated
  | .palLen => .dataTruncated
  | .palTrunc => .dataTruncated
  | .audioOverrun => .dataTruncated
  | .frameOverrun => .consistencyError
  | .byteTreeCapacity => .consistencyError
  | .wordTreeCapacity => .consistencyError
  | .palOvershoot => .consistencyError
  | .palCopyRange => .consistencyError
  | .audioConfig => .consistencyError
  | .audioSize => .consistencyError
  | .unsupportedRdft => .unsupportedFeature
  | .unsupportedDct => .unsupportedFeature

/-- Which classes are fatal (30_encoding.md R93, 60_exceptions.md R402 to R405). -/
def Code.fatal : Code → Bool
  | .ok => false
  | .formatError => false
  | .dataTruncated => true
  | .consistencyError => true
  | .unsupportedFeature => false
  | .refused => false

/-- The number of a class in the 4-bit CODE field (30_encoding.md R93). -/
def Code.number : Code → BitVec 4
  | .ok => 0
  | .formatError => 1
  | .dataTruncated => 2
  | .consistencyError => 3
  | .unsupportedFeature => 4
  | .refused => 15

/-- The number of a cause (60_exceptions.md R401). -/
def Cause.number : Cause → Nat
  | .none => 0
  | .illegalCommand => 1
  | .wrongPhase => 2
  | .badTrack => 3
  | .audioNotCompressed => 4
  | .badSignature => 5
  | .bootstrapOverrun => 6
  | .palLen => 7
  | .palTrunc => 8
  | .audioOverrun => 9
  | .frameOverrun => 10
  | .byteTreeCapacity => 11
  | .wordTreeCapacity => 12
  | .palOvershoot => 13
  | .palCopyRange => 14
  | .audioConfig => 15
  | .audioSize => 16
  | .unsupportedRdft => 17
  | .unsupportedDct => 18

/-- The number of a phase in the 2-bit PHASE register, in the order of 10_state.md R20. -/
def Phase.number : Phase → BitVec 2
  | .unconfigured => 0
  | .configured => 1
  | .ready => 2
  | .failed => 3

/-- STATUS with a cause and its class (60_exceptions.md R400). -/
def Status.of (cause : Cause) : Status := { code := cause.code, cause := cause }

/-- LEN of a cursor (10_state.md R27). -/
def Cursor.len (c : Cursor) : Nat := c.buf.length

/-- OVR after the cursor has moved to `pos`: sticky, and set when `pos > 8·LEN`
(40_bitcursor.md R142, R143, R145). -/
def Cursor.overrun (c : Cursor) (pos : Nat) : Bool := c.ovr || decide (8 * c.len < pos)

/-- `DIRTY[b]` (10_state.md R29). DIRTY is held as the rising list of the indices whose bit is 1. -/
def isDirty (dirty : List Nat) (b : Nat) : Bool := dirty.contains b

/-- `DIRTY[b] <- 1` (43_frame_decoder.md R253). -/
def markDirty (b : Nat) : List Nat → List Nat
  | [] => [b]
  | d :: rest => if b < d then b :: d :: rest else if b = d then d :: rest else d :: markDirty b rest

/-- `DIRTY[b] <- 0` for every `b` that `inside` holds of (44_dirty_rect.md R294). -/
def clearDirty (inside : Nat → Bool) (dirty : List Nat) : List Nat := dirty.filter (fun b => !inside b)

end Sys2Proof.Machine
end

