-- ==== Sys2Proof/Machine/Operands.lean ====
section
/-! DEFINITION. Operand forms: byte fields of 16-bit values, the registers derived from the
configuration (00_scope.md R4), the selection of a tree by its name, the fields of an audioInfo word
(47_host_interface.md R382), and the ROM tables (10_state.md R34, R35). -/

namespace Sys2Proof.Machine

/-- `v[7:0]`. -/
def lowByte (v : Half) : Byte := v.extractLsb' 0 8

/-- `v[15:8]`. -/
def highByte (v : Half) : Byte := v.extractLsb' 8 8

/-- `(hi << 8) | lo` (42_word_tree.md R201, 46_audio.md R347). -/
def joinBytes (hi lo : Byte) : Half := hi ++ lo

/-- D: 2 when FLAGS[2:1] is not 0, else 1 (47_host_interface.md R380, R381). -/
def Cfg.d (g : Cfg) : Nat := if g.flags.extractLsb' 1 2 = 0 then 1 else 2

/-- BW = W div 4 (00_scope.md R4). -/
def Cfg.bw (g : Cfg) : Nat := g.w.toNat / 4

/-- BH = H div 4 (00_scope.md R4). -/
def Cfg.bh (g : Cfg) : Nat := g.h.toNat / 4

/-- NB = BW · BH (00_scope.md R4). -/
def Cfg.nb (g : Cfg) : Nat := g.bw * g.bh

/-- The number of surface rows, H · D (10_state.md R28). -/
def Cfg.rows (g : Cfg) : Nat := g.h.toNat * g.d

/-- SZ_k (00_scope.md R4). -/
def Cfg.size (g : Cfg) : TreeId → Word
  | .mmap => g.szMmap
  | .mclr => g.szMclr
  | .full => g.szFull
  | .typ => g.szType

/-- CAP_k = SZ_k div 4 (00_scope.md R4, 42_word_tree.md R204). -/
def Cfg.cap (g : Cfg) (k : TreeId) : Nat := (g.size k).toNat / 4

/-- `AUDIO[TRACK]`, none for TRACK = 7 (46_audio.md R341). -/
def Cfg.audioInfo (g : Cfg) (track : BitVec 3) : Option Word := g.audio[track.toNat]?

/-- info[31], compression = Huffman + DPCM (47_host_interface.md R382). -/
def infoDpcm (info : Word) : Bool := info.getLsbD 31
/-- info[30], the track exists. -/
def infoHasAudio (info : Word) : Bool := info.getLsbD 30
/-- info[29], 16-bit samples. -/
def infoIs16Bit (info : Word) : Bool := info.getLsbD 29
/-- info[28], two channels. -/
def infoIsStereo (info : Word) : Bool := info.getLsbD 28
/-- info[27], compression = RDFT. -/
def infoRdft (info : Word) : Bool := info.getLsbD 27
/-- info[26], compression = DCT. -/
def infoDct (info : Word) : Bool := info.getLsbD 26
/-- info[23:0], the sample rate. -/
def infoRate (info : Word) : BitVec 24 := info.extractLsb' 0 24

/-- WT[k]. -/
def Trees.get (t : Trees) : TreeId → WordTree
  | .mmap => t.mmap
  | .mclr => t.mclr
  | .full => t.full
  | .typ => t.typ

/-- `WT[k] <- w`. -/
def Trees.set (t : Trees) (k : TreeId) (w : WordTree) : Trees :=
  match k with
  | .mmap => { t with mmap := w }
  | .mclr => { t with mclr := w }
  | .full => { t with full := w }
  | .typ => { t with typ := w }

/-- A function of each tree and its name, applied to all four. -/
def Trees.map (f : TreeId → WordTree → WordTree) (t : Trees) : Trees :=
  { mmap := f .mmap t.mmap, mclr := f .mclr t.mclr, full := f .full t.full, typ := f .typ t.typ }

/-- The running command's byte tree of that name. -/
def Work.byteTree (w : Work) : BtId → ByteTree
  | .lo => w.lo
  | .hi => w.hi
  | .at0 => w.at0
  | .at1 => w.at1
  | .at2 => w.at2
  | .at3 => w.at3

/-- The working state with the byte tree of that name replaced. -/
def Work.setByteTree (w : Work) (dst : BtId) (t : ByteTree) : Work :=
  match dst with
  | .lo => { w with lo := t }
  | .hi => { w with hi := t }
  | .at0 => { w with at0 := t }
  | .at1 => { w with at1 := t }
  | .at2 => { w with at2 := t }
  | .at3 => { w with at3 := t }

/-- RUNLEN[i] (10_state.md R34). -/
def runLen (i : BitVec 6) : Nat :=
  if i.toNat ≤ 58 then i.toNat + 1 else 128 <<< (i.toNat - 59)

/-- UP6[v] = v·4 + v div 16 (10_state.md R35). -/
def up6 (v : BitVec 6) : Byte := BitVec.ofNat 8 (v.toNat * 4 + v.toNat / 16)

/-- A coordinate in a u32 field of RECT (44_dirty_rect.md R290). The spec states no value for one of
2^32 or more (log 8). -/
def coord (n : Nat) : Word := if n < 2 ^ 32 then BitVec.ofNat 32 n else Config.wideCoord n

end Sys2Proof.Machine
end

