-- ==== Sys2Proof/Machine/Ops.lean ====
section
/-! DEFINITION. The shared operations: reading and writing a storage space (20_memory.md), and the ends
a command can come to: OK, a refusal, or a raise (60_exceptions.md R400 to R405). There is no trap entry
and no return from one (60_exceptions.md R408, R409): a raise is the whole mechanism. -/

namespace Sys2Proof.Machine

/-- The value the cells list for index `a`. -/
def findCell {α : Type} (a : Nat) : List (Nat × α) → Option α
  | [] => none
  | (b, v) :: rest => if a = b then some v else findCell a rest

/-- The cells with `v` at index `a`, in rising order. -/
def putCell {α : Type} (a : Nat) (v : α) : List (Nat × α) → List (Nat × α)
  | [] => [(a, v)]
  | (b, x) :: rest =>
    if a < b then (a, v) :: (b, x) :: rest
    else if a = b then (a, v) :: rest
    else (b, x) :: putCell a v rest

/-- What index `a` holds, where `unlisted` says what an index that no cell lists reads as. -/
def Memory.read {α : Type} (unlisted : Base → Nat → α) (m : Memory α) (a : Nat) : α :=
  (findCell a m.cells).getD (unlisted m.base a)

/-- `m[a] <- v`. -/
def Memory.write {α : Type} (m : Memory α) (a : Nat) (v : α) : Memory α :=
  { m with cells := putCell a v m.cells }

/-- The canonical form: indices strictly rising. A cell is listed when something wrote it; an unlisted
index reads as its base says (log 16). -/
abbrev Memory.wf {α : Type} (m : Memory α) : Prop := m.cells.Pairwise (fun p q => p.1 < q.1)

/-- What a pixel no command has written reads as (70_reset_and_hazards.md R444, 60_exceptions.md R402). -/
def unlistedPixel : Base → Nat → Byte
  | .init, a => Config.initSurface a
  | .failed n, a => Config.failedSurface n a

/-- What a palette entry no command has written reads as. -/
def unlistedEntry : Base → Nat → Rgb
  | .init, e => Config.initPalette e
  | .failed n, e => Config.failedPalette n e

/-- `S[a]`. -/
def pixelAt (surf : Memory Byte) (a : Nat) : Byte := surf.read unlistedPixel a

/-- `PAL[e]`. -/
def entryAt (pal : Memory Rgb) (e : Nat) : Rgb := pal.read unlistedEntry e

/-- The address of pixel (x, y), `y·W + x` (20_memory.md R64). -/
def pixelAddr (g : Cfg) (x y : Nat) : Nat := y * g.w.toNat + x

/-- `SurfWrite(x, y, v)` (20_memory.md R64). -/
def surfWrite (g : Cfg) (x y : Nat) (v : Byte) (surf : Memory Byte) : Memory Byte :=
  surf.write (pixelAddr g x y) v

/-- A command's end without a result: STATUS is written and the port is idle again
(30_encoding.md R92). It is all that a refusal and a non-fatal error do (60_exceptions.md R403, R404,
R405). -/
def State.report (s : State) (cause : Cause) : State :=
  { s with status := Status.of cause, port := none }

/-- What a fatal error leaves: PHASE is FAILED, and S, PAL, PAL_DIRTY, DIRTY, SCAN and the trees hold
unspecified content (60_exceptions.md R402; log 6). -/
def State.failWith (s : State) (n : Nat) : State :=
  { s with
    phase := .failed
    surf := Memory.blank (.failed n)
    pal := Memory.blank (.failed n)
    palDirty := Config.failedPalDirty n
    dirty := Config.failedDirty n
    scan := Config.failedScan n
    wt :=
      { mmap := Config.failedTree n .mmap
        mclr := Config.failedTree n .mclr
        full := Config.failedTree n .full
        typ := Config.failedTree n .typ }
    fails := n }

/-- `raise <Class>(<cause>)` (60_exceptions.md R400): the command ends with STATUS = (class, cause) and no
result field is delivered. A fatal class also performs R402, and its working state is gone. A non-fatal
class writes STATUS and nothing else (R403, R404, R405), the working state included: a command raises one
before it has any, and that a syntax element executed on its own keeps its working state there is the
model's choice (log 11). -/
def State.raise (s : State) (cause : Cause) : State :=
  if cause.code.fatal then
    State.failWith { s.report cause with work := Work.idle } (s.fails + 1)
  else s.report cause

/-- `STATUS <- (OK, NONE)` at the end of a command that completed: the working state is discarded
(10_state.md R27, R33). -/
def State.finish (s : State) : State := { s.report .none with work := Work.idle }

/-- The state a computation of the running command leads to: its result's, or the raise it ends in. -/
def State.orRaise {α : Type} (s : State) (r : Except Cause α) (k : α → State) : State :=
  match r with
  | .ok a => k a
  | .error cause => s.raise cause

/-- Phase admission (30_encoding.md R94): `run` where the phase admits the command, else a refusal. -/
def State.whenAdmitted (s : State) (admitted : Bool) (run : State) : State :=
  if admitted then run else s.report .wrongPhase

/-- The phases CONFIGURED and READY, which admit UNPACK_PALETTE, DECODE_AUDIO, GET_DIRTY_RECT and
ACK_PALETTE (30_encoding.md R94). -/
def Phase.isOpen : Phase → Bool
  | .unconfigured => false
  | .configured => true
  | .ready => true
  | .failed => false

/-- What the reset input does (70_reset_and_hazards.md R440): every element takes its value after reset.
The count of fatal errors, which is the model's own, goes on (log 14). -/
def State.afterReset (s : State) : State := { State.reset with fails := s.fails }

end Sys2Proof.Machine
end

