-- ==== Sys2Proof/Machine/BitCursor.lean ====
section
/-! DEFINITION. The bit cursor (40_bitcursor.md) and the meanings of READ_BIT, READ_BITS, PEEK8 and SKIP.
As an instruction a micro-operation acts on the running command's cursor and leaves its result in
`Work.res` (log 11). -/

namespace Sys2Proof.Machine

/-- A new cursor over a buffer (40_bitcursor.md R140). -/
def Cursor.over (buf : List Byte) : Cursor := { buf := buf, pos := 0, ovr := false }

/-- `bit(c, i)` (40_bitcursor.md R141). -/
def Cursor.bit (c : Cursor) (i : Nat) : Bool :=
  if i < 8 * c.len then (c.buf.getD (i / 8) 0).getLsbD (i % 8) else false

/-- `Skip(c, n)` (40_bitcursor.md R145). -/
def Cursor.skip (c : Cursor) (n : Nat) : Cursor :=
  { c with pos := c.pos + n, ovr := c.overrun (c.pos + n) }

/-- `ReadBit(c)` (40_bitcursor.md R142). -/
def Cursor.readBit (c : Cursor) : Bool × Cursor := (c.bit c.pos, c.skip 1)

/-- The number whose bit `k` is stream bit `p + k`, for `k < n` (40_bitcursor.md R143, R147). -/
def Cursor.field (c : Cursor) (p : Nat) : Nat → Nat
  | 0 => 0
  | n + 1 => (c.bit p).toNat + 2 * c.field (p + 1) n

/-- `ReadBits(c, n)` (40_bitcursor.md R143). -/
def Cursor.readBits (c : Cursor) (n : Nat) : Nat × Cursor := (c.field c.pos n, c.skip n)

/-- `ReadBits(c, 8)` as a u8. -/
def Cursor.readByte (c : Cursor) : Byte × Cursor :=
  (BitVec.ofNat 8 (c.readBits 8).1, (c.readBits 8).2)

/-- `ReadBits(c, 16)` as a u16. -/
def Cursor.readHalf (c : Cursor) : Half × Cursor :=
  (BitVec.ofNat 16 (c.readBits 16).1, (c.readBits 16).2)

/-- `Peek8(c)` (40_bitcursor.md R144). -/
def Cursor.peek8 (c : Cursor) : Nat := c.field c.pos 8

/-- The bytes a cursor has consumed, `ceil(POS / 8)` (40_bitcursor.md R149). -/
def Cursor.consumedBytes (c : Cursor) : Nat := (c.pos + 7) / 8

/-- The machine with another cursor in its working state. -/
def State.withCursor (s : State) (c : Cursor) : State := { s with work := { s.work with cur := c } }

/-- The machine with a micro-operation's result and the cursor it leaves. -/
def State.withResult (s : State) (v : Half) (c : Cursor) : State :=
  { s with work := { s.work with cur := c, res := v } }

/-- READ_BIT (40_bitcursor.md R142). -/
def execReadBit (s : State) : Host.Outcome State Fault Refusal :=
  .next (s.withResult (BitVec.ofBool s.work.cur.readBit.1 |>.setWidth 16) s.work.cur.readBit.2)

/-- READ_BITS (40_bitcursor.md R143). -/
def execReadBits (n : Nat) (s : State) : Host.Outcome State Fault Refusal :=
  .next (s.withResult (BitVec.ofNat 16 (s.work.cur.readBits n).1) (s.work.cur.readBits n).2)

/-- PEEK8 (40_bitcursor.md R144). -/
def execPeek8 (s : State) : Host.Outcome State Fault Refusal :=
  .next (s.withResult (BitVec.ofNat 16 s.work.cur.peek8) s.work.cur)

/-- SKIP (40_bitcursor.md R145). -/
def execSkip (n : Nat) (s : State) : Host.Outcome State Fault Refusal :=
  .next (s.withCursor (s.work.cur.skip n))

end Sys2Proof.Machine
end

