-- ==== Sys2Proof/Machine/TreeCells.lean ====
section
/-! DEFINITION. What byte trees and word trees share (41_byte_tree.md R171 to R174, R177): appending a
cell under a capacity, filling the prefix table, reading a cell, and the walk to a leaf. -/

namespace Sys2Proof.Machine

/-- `Append(t, cell)` on the node array (41_byte_tree.md R174, 42_word_tree.md R204). The new cell's index
is the array's length before. The test is "N has reached CAP" (log 19). -/
def appendCell {w : Nat} (cap : Nat) (full : Cause) (nodes : List (Node w)) (cell : Node w) :
    Except Cause (List (Node w)) :=
  if cap ≤ nodes.length then .error full else .ok (nodes ++ [cell])

/-- `FillPrefix` from entry `k` on (41_byte_tree.md R172). -/
def fillPfxFrom (code len i : Nat) : Nat → List PfxEntry → List PfxEntry
  | _, [] => []
  | k, e :: rest =>
    (if k % 2 ^ len = code then { node := i, len := len } else e) :: fillPfxFrom code len i (k + 1) rest

/-- The prefix table after a leaf of index `i` at depth `len` with code bits `code`
(41_byte_tree.md R171, R172): filled when `len ≤ 8`, else as it was. -/
def fillPfx (code len i : Nat) (pfx : List PfxEntry) : List PfxEntry :=
  if len ≤ 8 then fillPfxFrom code len i 0 pfx else pfx

/-- The code bits of the right child of a node at depth `len` (41_byte_tree.md R171): kept only while
the child's depth is at most 8. -/
def rightCode (code len : Nat) : Nat := if len < 8 then code ||| (1 <<< len) else code

/-- `NODE[p]`; at or past N, where no rule reads (10_state.md R39), a leaf with a free value (log 9). -/
def nodeAt {w : Nat} (nodes : List (Node w)) (p : Nat) : Node w :=
  nodes.getD p (.leaf ((Config.noValue p).setWidth w))

/-- `value(Leaf(x)) = x` (42_word_tree.md R206); of an Internal cell, which no rule asks for, a free value
(log 9). -/
def leafValue {w : Nat} : Node w → BitVec w
  | .leaf v => v
  | .internal r => (Config.noValue r).setWidth w

/-- `Walk` from index `p`, at most `fuel` nodes deep (41_byte_tree.md R177): the index of the leaf reached
and the cursor there. -/
def walkFrom {w : Nat} : Nat → List (Node w) → Cursor → Nat → Nat × Cursor
  | 0, _, c, p => (p, c)
  | fuel + 1, nodes, c, p =>
    match nodeAt nodes p with
    | .leaf _ => (p, c)
    | .internal r => walkFrom fuel nodes c.readBit.2 (p + 1 + if c.readBit.1 then r else 0)

/-- `Walk(t, c, p)` (41_byte_tree.md R177). `p` rises at every step, so it ends within N steps
(R181; log 20). -/
def walk {w : Nat} (nodes : List (Node w)) (c : Cursor) (p : Nat) : Nat × Cursor :=
  walkFrom (nodes.length + 1) nodes c p

/-- The index a code leads to (41_byte_tree.md R176, 42_word_tree.md R206): the prefix table's entry for
the next 8 bits, its bits skipped, then the walk. A table of fewer than 256 entries, which no construction
gives, reads as (0, 0) past its end (log 27). -/
def lookup {w : Nat} (nodes : List (Node w)) (pfx : List PfxEntry) (c : Cursor) : Nat × Cursor :=
  let entry := pfx.getD c.peek8 { node := 0, len := 0 }
  walk nodes (c.skip entry.len) entry.node

end Sys2Proof.Machine
end

