-- ==== Sys2Proof/Machine/ByteTree.lean ====
section
/-! DEFINITION. The adaptive byte tree (41_byte_tree.md) and the meanings of BT_EMPTY, BT_PRESENT,
BNODE_LEAF, BNODE_INTERNAL, BYTE_BUILD and BYTE_GETCODE. -/

namespace Sys2Proof.Machine

/-- The tree BYTE_BUILD starts from (41_byte_tree.md R170). -/
def newByteTree : ByteTree := { empty := false, nodes := [], pfx := zeroPfx }

/-- What a node construction gives: the tree, the cursor, and the node count of the subtree
(41_byte_tree.md R171). -/
abbrev ByteBuilt := Except Cause (ByteTree × Cursor × Nat)

/-- A leaf of a byte tree, after its bit 0 (41_byte_tree.md R171). -/
def byteLeaf (t : ByteTree) (c : Cursor) (code len : Nat) : ByteBuilt := do
  let (v, c) := c.readByte
  let nodes ← appendCell Config.byteCap .byteTreeCapacity t.nodes (.leaf v)
  pure ({ t with nodes := nodes, pfx := fillPfx code len t.nodes.length t.pfx }, c, 1)

/-- An internal node of a byte tree, after its bit 1 (41_byte_tree.md R171): its slot is reserved, the
left subtree is built by `node`, its count is stored, and the right subtree is built. -/
def byteInternal (node : ByteTree → Cursor → Nat → Nat → ByteBuilt) (t : ByteTree) (c : Cursor)
    (code len : Nat) : ByteBuilt := do
  let nodes ← appendCell Config.byteCap .byteTreeCapacity t.nodes (.internal 0)
  let (left, c, r1) ← node { t with nodes := nodes } c code (len + 1)
  let stored := { left with nodes := left.nodes.set t.nodes.length (.internal r1) }
  let (right, c, r2) ← node stored c (rightCode code len) (len + 1)
  pure (right, c, r1 + r2 + 1)

/-- `BNode(t, c, prefix, len)` (41_byte_tree.md R171), with `fuel` levels left. Every level above holds
a cell, so a node for which no level is left finds the array full (R181; log 20). -/
def byteNode : Nat → ByteTree → Cursor → Nat → Nat → ByteBuilt
  | 0, t, c, code, len =>
    if c.readBit.1 then .error .byteTreeCapacity else byteLeaf t c.readBit.2 code len
  | fuel + 1, t, c, code, len =>
    if c.readBit.1 then byteInternal (byteNode fuel) t c.readBit.2 code len
    else byteLeaf t c.readBit.2 code len

/-- A present byte tree, after its bit 1: the nodes and the padding bit (41_byte_tree.md R170). -/
def bytePresent (c : Cursor) : Except Cause (ByteTree × Cursor) := do
  let (t, c, _) ← byteNode Config.byteCap newByteTree c 0 0
  pure (t, c.skip 1)

/-- An empty byte tree (41_byte_tree.md R170, R180). -/
def byteEmpty : ByteTree := { newByteTree with empty := true }

/-- `BuildByteTree(c)` (41_byte_tree.md R170). -/
def buildByteTree (c : Cursor) : Except Cause (ByteTree × Cursor) :=
  if c.readBit.1 then bytePresent c.readBit.2 else .ok (byteEmpty, c.readBit.2)

/-- `ByteGetCode(t, c)` (41_byte_tree.md R176). -/
def byteGetCode (t : ByteTree) (c : Cursor) : Byte × Cursor :=
  if t.empty then (0, c)
  else
    let (p, c) := lookup t.nodes t.pfx c
    (leafValue (nodeAt t.nodes p), c)

/-- The machine with the byte tree `dst` and the cursor replaced. -/
def State.withByteTree (s : State) (dst : BtId) (t : ByteTree) (c : Cursor) : State :=
  { s with work := { s.work.setByteTree dst t with cur := c } }

/-- The machine after a node construction of the byte tree `dst`: tree, cursor and node count. -/
def State.withByteNode (s : State) (dst : BtId) (b : ByteTree × Cursor × Nat) : State :=
  { s with work := { s.work.setByteTree dst b.1 with cur := b.2.1, count := b.2.2 } }

/-- BT_EMPTY (41_byte_tree.md R170): one bit, and the tree is empty. -/
def execBtEmpty (dst : BtId) (s : State) : Host.Outcome State Fault Refusal :=
  .next (s.withByteTree dst byteEmpty (s.work.cur.skip 1))

/-- BT_PRESENT (41_byte_tree.md R170): its bit, then the nodes and the padding bit. -/
def execBtPresent (dst : BtId) (s : State) : Host.Outcome State Fault Refusal :=
  .next (s.orRaise (bytePresent (s.work.cur.skip 1)) fun (t, c) => s.withByteTree dst t c)

/-- BNODE_LEAF (41_byte_tree.md R171) at the position the working state holds. -/
def execBnodeLeaf (dst : BtId) (s : State) : Host.Outcome State Fault Refusal :=
  .next (s.orRaise
    (byteLeaf (s.work.byteTree dst) (s.work.cur.skip 1) s.work.codePfx s.work.codeLen)
    (s.withByteNode dst))

/-- BNODE_INTERNAL (41_byte_tree.md R171) at the position the working state holds, with both subtrees. -/
def execBnodeInternal (dst : BtId) (s : State) : Host.Outcome State Fault Refusal :=
  .next (s.orRaise
    (byteInternal (byteNode Config.byteCap) (s.work.byteTree dst) (s.work.cur.skip 1)
      s.work.codePfx s.work.codeLen)
    (s.withByteNode dst))

/-- BYTE_BUILD (41_byte_tree.md R170). -/
def execByteBuild (dst : BtId) (s : State) : Host.Outcome State Fault Refusal :=
  .next (s.orRaise (buildByteTree s.work.cur) fun (t, c) => s.withByteTree dst t c)

/-- BYTE_GETCODE (41_byte_tree.md R176). -/
def execByteGetcode (src : BtId) (s : State) : Host.Outcome State Fault Refusal :=
  .next (s.withResult ((byteGetCode (s.work.byteTree src) s.work.cur).1.setWidth 16)
    (byteGetCode (s.work.byteTree src) s.work.cur).2)

end Sys2Proof.Machine
end

