-- ==== Sys2Proof/Machine/Audio.lean ====
section
/-! DEFINITION. The audio decoder (46_audio.md) and the meanings of DECODE_AUDIO, AUD_ABSENT and
AUD_PRESENT. -/

namespace Sys2Proof.Machine

/-- `AudioDispatch(TRACK)` (46_audio.md R341): the audioInfo word of a track that is decoded, or the cause
the command ends with. None of these causes is fatal. -/
def audioDispatch (g : Cfg) (track : BitVec 3) : Except Cause Word :=
  match g.audioInfo track with
  | none => .error .badTrack
  | some info =>
    if infoHasAudio info = false then .error .badTrack
    else if infoDpcm info then .ok info
    else if infoRdft info then .error .unsupportedRdft
    else if infoDct info then .error .unsupportedDct
    else .error .audioNotCompressed

/-- The working state of a chunk (10_state.md R33): the cursor, BASE, OUT and OUTB. -/
structure AudioState where
  cur : Cursor
  base0 : Half
  base1 : Half
  samples : List Sample
  outb : Nat
deriving DecidableEq, Repr

/-- The format of a chunk: ST and B16 (46_audio.md R340). -/
structure AudioFormat where
  st : Bool
  b16 : Bool
deriving DecidableEq, Repr

/-- `ch = st + 1`. -/
def AudioFormat.channels (f : AudioFormat) : Nat := f.st.toNat + 1

/-- `bps = b16 + 1`. -/
def AudioFormat.bytes (f : AudioFormat) : Nat := f.b16.toNat + 1

/-- `NP = ch · bps`, the number of planes, which is also the bytes of one frame. -/
def AudioFormat.planes (f : AudioFormat) : Nat := f.channels * f.bytes

/-- The plane trees AT[0..NP-1], built one after another (46_audio.md R344). -/
def buildPlanes : Nat → Cursor → Except Cause (List ByteTree × Cursor)
  | 0, c => .ok ([], c)
  | n + 1, c => do
    let (t, c) ← buildByteTree c
    let (rest, c) ← buildPlanes n c
    pure (t :: rest, c)

/-- AT[q]; the empty tree for q at or past NP, which no rule asks for (log 27). -/
def plane (planes : List ByteTree) (q : Nat) : ByteTree := planes.getD q emptyByteTree

/-- A base sample from the stream (46_audio.md R345): 8 bits, or 16 bits byte-swapped. -/
def readBase (b16 : Bool) (c : Cursor) : Half × Cursor :=
  if b16 then (joinBytes (lowByte c.readHalf.1) (highByte c.readHalf.1), c.readHalf.2)
  else (c.readByte.1.setWidth 16, c.readByte.2)

/-- `ReadBases(c)` (46_audio.md R345): for stereo the right channel first, then the left. -/
def readBases (f : AudioFormat) (a : AudioState) : AudioState :=
  if f.st then
    let (r, c) := readBase f.b16 a.cur
    let (l, c) := readBase f.b16 c
    { a with base1 := r, base0 := l, cur := c }
  else
    let (l, c) := readBase f.b16 a.cur
    { a with base0 := l, cur := c }

/-- The sample a BASE is emitted as (46_audio.md R346): 8-bit XORed with 0x80, 16-bit as it is. -/
def toSample (b16 : Bool) (base : Half) : Sample :=
  if b16 then .s16 base else .s8 (lowByte base ^^^ 0x80)

/-- `Emit(s)` (46_audio.md R348). -/
def emit (f : AudioFormat) (s : Sample) (a : AudioState) : AudioState :=
  { a with samples := a.samples ++ [s], outb := a.outb + f.bytes }

/-- `EmitFrame()` (46_audio.md R346): left (or mono), then right. -/
def emitFrame (f : AudioFormat) (a : AudioState) : AudioState :=
  if f.st then emit f (toSample f.b16 a.base1) (emit f (toSample f.b16 a.base0) a)
  else emit f (toSample f.b16 a.base0) a

/-- One channel's delta (46_audio.md R347): BASE plus the delta, mod 2^8 or 2^16. For 8-bit, one code from
AT[k]; for 16-bit, the low code from AT[2k] and then the high code from AT[2k+1]. -/
def channelDelta (b16 : Bool) (planes : List ByteTree) (k : Nat) (base : Half) (c : Cursor) : Half × Cursor :=
  if b16 then
    let (lo, c) := byteGetCode (plane planes (2 * k)) c
    let (hi, c) := byteGetCode (plane planes (2 * k + 1)) c
    (base + joinBytes hi lo, c)
  else
    let (d, c) := byteGetCode (plane planes k) c
    ((lowByte base + d).setWidth 16, c)

/-- One delta frame (46_audio.md R347): every channel's delta, left then right, then the emission. -/
def deltaFrame (f : AudioFormat) (planes : List ByteTree) (a : AudioState) : AudioState :=
  let (l, c) := channelDelta f.b16 planes 0 a.base0 a.cur
  if f.st then
    let (r, c) := channelDelta f.b16 planes 1 a.base1 c
    emitFrame f { a with base0 := l, base1 := r, cur := c }
  else emitFrame f { a with base0 := l, cur := c }

/-- `repeat n times` (46_audio.md R340). -/
def deltaFrames (f : AudioFormat) (planes : List ByteTree) : Nat → AudioState → AudioState
  | 0, a => a
  | n + 1, a => deltaFrames f planes n (deltaFrame f planes a)

/-- UNPACKED is at least NP and a multiple of NP (46_audio.md R343). -/
def sizeFits (f : AudioFormat) (unpacked : Nat) : Bool :=
  decide (f.planes ≤ unpacked) && unpacked % f.planes == 0

/-- A present chunk after its two configuration bits (46_audio.md R340, R342, R343): the checks, the plane
trees, the bases, the delta frames and the overrun check. -/
def audioBody (info : Word) (unpacked : Nat) (f : AudioFormat) (a : AudioState) :
    Except Cause AudioState :=
  if f.st ≠ infoIsStereo info ∨ f.b16 ≠ infoIs16Bit info then .error .audioConfig
  else if sizeFits f unpacked = false then .error .audioSize
  else do
    let (planes, c) ← buildPlanes f.planes a.cur
    let a := deltaFrames f planes (unpacked / f.planes - 1) (emitFrame f (readBases f { a with cur := c }))
    if a.cur.ovr then .error .audioOverrun else pure a

/-- A present chunk after its first bit (46_audio.md R340): ST, B16, then the rest. -/
def audioPresent (info : Word) (unpacked : Nat) (a : AudioState) : Except Cause AudioState :=
  let (st, c) := a.cur.readBit
  let (b16, c) := c.readBit
  audioBody info unpacked { st := st, b16 := b16 } { a with cur := c }

/-- The audio state of a new command (46_audio.md R340): OUT empty, a new cursor. -/
def audioStart (chunk : List Byte) : AudioState :=
  { cur := Cursor.over chunk, base0 := 0, base1 := 0, samples := [], outb := 0 }

/-- A chunk: none where its first bit is 0, which includes the empty chunk (46_audio.md R351). -/
def decodeChunk (info : Word) (unpacked : Nat) (chunk : List Byte) : Except Cause (Option (List Sample)) :=
  let a := audioStart chunk
  if a.cur.readBit.1 then do
    let r ← audioPresent info unpacked { a with cur := a.cur.readBit.2 }
    pure (some r.samples)
  else .ok none

/-- DECODE_AUDIO's end with data present: OUT passes to the host, with the track's sample rate
(20_memory.md R73, 46_audio.md R348, R350; log 18). -/
def State.deliver (s : State) (info : Word) (samples : List Sample) : State :=
  State.finish { s with out := samples, outRate := infoRate info }

/-- DECODE_AUDIO's end with no data: OUT is empty (46_audio.md R351). -/
def State.deliverNothing (s : State) : State := State.finish { s with out := [] }

/-- DECODE_AUDIO in a phase that admits it (46_audio.md R340). -/
def State.decodeAudio (s : State) (track : BitVec 3) (chunk : List Byte) (unpacked : Word) : State :=
  s.orRaise (audioDispatch s.cfg track) fun info =>
    s.orRaise (decodeChunk info unpacked.toNat chunk) fun r =>
      match r with
      | none => s.deliverNothing
      | some samples => s.deliver info samples

/-- DECODE_AUDIO (46_audio.md R340), admitted in CONFIGURED and READY (30_encoding.md R94). -/
def execDecodeAudio (track : BitVec 3) (chunk : List Byte) (unpacked : Word) (s : State) :
    Host.Outcome State Fault Refusal :=
  .next (s.whenAdmitted s.phase.isOpen (s.decodeAudio track chunk unpacked))

/-- The audio state of the running DECODE_AUDIO, its first bit consumed. -/
def State.audio (s : State) : AudioState :=
  { cur := s.work.cur.skip 1, base0 := s.work.base0, base1 := s.work.base1
    samples := s.work.samples, outb := s.work.outb }

/-- AUD_ABSENT (46_audio.md R351): the command ends OK with OUT empty. -/
def execAudAbsent (s : State) : Host.Outcome State Fault Refusal := .next s.deliverNothing

/-- AUD_PRESENT (46_audio.md R340): its bit, then the rest of the chunk, which ends the command. The track's
audioInfo word is looked up by AudioDispatch, so that this row executed on its own can end with one of its
four causes although a chunk bit has been fetched; that is the model's choice (log 11). Inside DECODE_AUDIO
the dispatch comes before the chunk is read (R341, 60_exceptions.md R404). -/
def execAudPresent (s : State) : Host.Outcome State Fault Refusal :=
  .next (s.orRaise (audioDispatch s.cfg s.work.track) fun info =>
    s.orRaise (audioPresent info s.work.unpacked.toNat s.audio) fun a => s.deliver info a.samples)

end Sys2Proof.Machine
end

