-- ==== Sys2Proof/Machine/DirtyRect.lean ====
section
/-! DEFINITION. The dirty-rectangle scanner (44_dirty_rect.md) and the meaning of GET_DIRTY_RECT. -/

namespace Sys2Proof.Machine

/-- A rectangle of blocks: columns `x0` to `x1 - 1`, rows `y0` to `y1 - 1`. -/
structure BlockRect where
  x0 : Nat
  y0 : Nat
  x1 : Nat
  y1 : Nat
deriving DecidableEq, Repr

/-- Block index `b` lies inside the rectangle (43_frame_decoder.md R242). -/
def BlockRect.contains (g : Cfg) (r : BlockRect) (b : Nat) : Bool :=
  decide (r.x0 ≤ b % g.bw) && decide (b % g.bw < r.x1) && decide (r.y0 ≤ b / g.bw) && decide (b / g.bw < r.y1)

/-- The least dirty index `k` with SCAN ≤ k < NB (44_dirty_rect.md R290, R291). -/
def firstDirty (g : Cfg) (dirty : List Nat) (scan : Nat) : Option Nat :=
  (dirty.filter fun b => decide (scan ≤ b) && decide (b < g.nb)).min?

/-- `while x1 < BW and DIRTY[by·BW + x1] = 1: x1 <- x1 + 1` (44_dirty_rect.md R292), at most `fuel` times. -/
def growRight (g : Cfg) (dirty : List Nat) (row : Nat) : Nat → Nat → Nat
  | 0, x1 => x1
  | fuel + 1, x1 =>
    if x1 < g.bw ∧ isDirty dirty (row * g.bw + x1) then growRight g dirty row fuel (x1 + 1) else x1

/-- Row `y1` joins the rectangle (44_dirty_rect.md R293): its blocks x0..x1−1 are dirty, and the blocks
just outside, where they exist, are clean. -/
def rowJoins (g : Cfg) (dirty : List Nat) (x0 x1 y1 : Nat) : Bool :=
  (List.range' x0 (x1 - x0)).all (fun x => isDirty dirty (y1 * g.bw + x)) &&
  (x0 == 0 || !isDirty dirty (y1 * g.bw + x0 - 1)) &&
  (x1 == g.bw || !isDirty dirty (y1 * g.bw + x1))

/-- The downward growth (44_dirty_rect.md R293), at most `fuel` times. -/
def growDown (g : Cfg) (dirty : List Nat) (x0 x1 : Nat) : Nat → Nat → Nat
  | 0, y1 => y1
  | fuel + 1, y1 =>
    if y1 < g.bh ∧ rowJoins g dirty x0 x1 y1 then growDown g dirty x0 x1 fuel (y1 + 1) else y1

/-- The rectangle whose top-left block is `k` (44_dirty_rect.md R290, R292, R293). BW and BH bound the
growth (R475; log 20). -/
def rectFrom (g : Cfg) (dirty : List Nat) (k : Nat) : BlockRect :=
  let x0 := k % g.bw
  let y0 := k / g.bw
  let x1 := growRight g dirty y0 g.bw x0
  { x0 := x0, y0 := y0, x1 := x1, y1 := growDown g dirty x0 x1 g.bh (y0 + 1) }

/-- RECT in surface pixel units (44_dirty_rect.md R295). -/
def BlockRect.toRect (g : Cfg) (r : BlockRect) : Rect :=
  { left := coord (4 * r.x0), top := coord (4 * r.y0 * g.d)
    right := coord (4 * r.x1), bottom := coord (4 * r.y1 * g.d) }

/-- GET_DIRTY_RECT in a phase that admits it (44_dirty_rect.md R290, R294, R296). -/
def State.nextRect (s : State) : State :=
  match firstDirty s.cfg s.dirty s.scan with
  | none => State.finish { s with scan := 0, rect := none }
  | some k =>
    let r := rectFrom s.cfg s.dirty k
    State.finish
      { s with dirty := clearDirty (r.contains s.cfg) s.dirty, scan := k, rect := some (r.toRect s.cfg) }

/-- GET_DIRTY_RECT (44_dirty_rect.md R290), admitted in CONFIGURED and READY (30_encoding.md R94). -/
def execGetDirtyRect (s : State) : Host.Outcome State Fault Refusal :=
  .next (s.whenAdmitted s.phase.isOpen s.nextRect)

end Sys2Proof.Machine
end

