-- ==== Sys2Proof/Machine/WordTree.lean ====
section
/-! DEFINITION. The adaptive word tree with its three MRU slots (42_word_tree.md) and the meanings of
WT_EMPTY, WT_PRESENT, WNODE_LEAF, WNODE_INTERNAL, WORD_BUILD, WORD_GETCODE and WORD_RESET. -/

namespace Sys2Proof.Machine

/-- A word tree under construction with its local SET flags (42_word_tree.md R200). -/
structure WordDraft where
  tree : WordTree
  marked : Tri Bool
deriving DecidableEq, Repr, Inhabited

/-- What WORD_BUILD makes of the tree before it reads a bit (42_word_tree.md R200). BUILT, MARK and SLOT
stay as they are. -/
def clearWordTree (w : WordTree) : WordTree :=
  { w with empty := false, nodes := [], pfx := zeroPfx }

/-- No marker matched yet: SET[0..2] = 0. -/
def noneMarked : Tri Bool := { j0 := false, j1 := false, j2 := false }

/-- `WAppend(w, cell, cap)` (42_word_tree.md R204). -/
def wordAppend (cap : Nat) (w : WordTree) (cell : Node 16) : Except Cause WordTree := do
  let nodes ← appendCell cap .wordTreeCapacity w.nodes cell
  pure { w with nodes := nodes }

/-- One test of `MarkerMatch(w, v, i)`, for marker `j` (42_word_tree.md R202). -/
def matchMarker (v : Half) (i : Nat) (b : WordDraft) (j : Fin 3) : WordDraft :=
  if v = b.tree.mark.get j then
    { tree := { b.tree with slot := b.tree.slot.set i j, nodes := b.tree.nodes.set i (.leaf 0) }
      marked := b.marked.set true j }
  else b

/-- `MarkerMatch(w, v, i)` (42_word_tree.md R202): three independent tests on the composed value. -/
def markerMatch (v : Half) (i : Nat) (b : WordDraft) : WordDraft :=
  matchMarker v i (matchMarker v i (matchMarker v i b 0) 1) 2

/-- What a node construction gives: the draft, the cursor, and the node count of the subtree. -/
abbrev WordBuilt := Except Cause (WordDraft × Cursor × Nat)

/-- A leaf of a word tree, after its bit 0 (42_word_tree.md R201): low code, then high code. -/
def wordLeaf (cap : Nat) (lo hi : ByteTree) (b : WordDraft) (c : Cursor) (code len : Nat) :
    WordBuilt := do
  let (vlo, c) := byteGetCode lo c
  let (vhi, c) := byteGetCode hi c
  let v := joinBytes vhi vlo
  let i := b.tree.nodes.length
  let w ← wordAppend cap b.tree (.leaf v)
  pure (markerMatch v i { b with tree := { w with pfx := fillPfx code len i w.pfx } }, c, 1)

/-- An internal node of a word tree, after its bit 1 (42_word_tree.md R201). -/
def wordInternal (cap : Nat) (node : WordDraft → Cursor → Nat → Nat → WordBuilt) (b : WordDraft)
    (c : Cursor) (code len : Nat) : WordBuilt := do
  let i := b.tree.nodes.length
  let w ← wordAppend cap b.tree (.internal 0)
  let (left, c, r1) ← node { b with tree := w } c code (len + 1)
  let stored :=
    { left with tree := { left.tree with nodes := left.tree.nodes.set i (.internal r1) } }
  let (right, c, r2) ← node stored c (rightCode code len) (len + 1)
  pure (right, c, r1 + r2 + 1)

/-- `WNode(w, c, LO, HI, prefix, len)` (42_word_tree.md R201), with `fuel` levels left (log 20). -/
def wordNode (cap : Nat) (lo hi : ByteTree) : Nat → WordDraft → Cursor → Nat → Nat → WordBuilt
  | 0, b, c, code, len =>
    if c.readBit.1 then .error .wordTreeCapacity else wordLeaf cap lo hi b c.readBit.2 code len
  | fuel + 1, b, c, code, len =>
    if c.readBit.1 then wordInternal cap (wordNode cap lo hi fuel) b c.readBit.2 code len
    else wordLeaf cap lo hi b c.readBit.2 code len

/-- The cell appended for marker `j` when no leaf matched it (42_word_tree.md R203). -/
def appendUnmatched (cap : Nat) (b : WordDraft) (j : Fin 3) : Except Cause WordDraft :=
  if b.marked.get j then .ok b
  else do
    let w ← wordAppend cap b.tree (.leaf 0)
    pure { b with tree := { w with slot := w.slot.set b.tree.nodes.length j } }

/-- The three markers, read in order (42_word_tree.md R200). -/
def readMarkers (c : Cursor) : Tri Half × Cursor :=
  let (m0, c) := c.readHalf
  let (m1, c) := c.readHalf
  let (m2, c) := c.readHalf
  ({ j0 := m0, j1 := m1, j2 := m2 }, c)

/-- A present word tree, after its bit 1 (42_word_tree.md R200): LO, HI, the markers, the nodes, the
padding bit, and the cells of the unmatched markers. `w` is the cleared tree. -/
def wordPresent (cap : Nat) (w : WordTree) (c : Cursor) : Except Cause (WordTree × Cursor) := do
  let (lo, c) ← buildByteTree c
  let (hi, c) ← buildByteTree c
  let (marks, c) := readMarkers c
  let (b, c, _) ← wordNode cap lo hi cap { tree := { w with mark := marks }, marked := noneMarked } c 0 0
  let b0 ← appendUnmatched cap b 0
  let b1 ← appendUnmatched cap b0 1
  let b2 ← appendUnmatched cap b1 2
  pure (b2.tree, c.skip 1)

/-- An empty word tree (42_word_tree.md R200, R210). -/
def wordEmpty (w : WordTree) : WordTree := { clearWordTree w with empty := true }

/-- `BuildWordTree(w, c, cap)` (42_word_tree.md R200). -/
def buildWordTree (cap : Nat) (w : WordTree) (c : Cursor) : Except Cause (WordTree × Cursor) :=
  if c.readBit.1 then wordPresent cap (clearWordTree w) c.readBit.2
  else .ok (wordEmpty w, c.readBit.2)

/-- `MruUpdate(w, v)` on the node array (42_word_tree.md R207; a slot past the array: log 27): the three writes in
order, each read seeing the writes before it. -/
def mruUpdate (slot : Tri Nat) (v : Half) (nodes : List (Node 16)) : List (Node 16) :=
  if v = leafValue (nodeAt nodes slot.j0) then nodes
  else
    let nodes := nodes.set slot.j2 (.leaf (leafValue (nodeAt nodes slot.j1)))
    let nodes := nodes.set slot.j1 (.leaf (leafValue (nodeAt nodes slot.j0)))
    nodes.set slot.j0 (.leaf v)

/-- `WordGetCode(w, c)` (42_word_tree.md R206). -/
def wordGetCode (w : WordTree) (c : Cursor) : Half × WordTree × Cursor :=
  if w.empty then (0, w, c)
  else
    let (p, c) := lookup w.nodes w.pfx c
    let v := leafValue (nodeAt w.nodes p)
    (v, { w with nodes := mruUpdate w.slot v w.nodes }, c)

/-- `WordReset(w)` (42_word_tree.md R209; a slot past the array: log 27). -/
def wordReset (w : WordTree) : WordTree :=
  if w.empty then w
  else
    { w with nodes := ((w.nodes.set w.slot.j0 (.leaf 0)).set w.slot.j1 (.leaf 0)).set w.slot.j2 (.leaf 0) }

/-- The machine with word tree `k` and the cursor replaced. -/
def State.withWordTree (s : State) (k : TreeId) (w : WordTree) (c : Cursor) : State :=
  { s with wt := s.wt.set k w, work := { s.work with cur := c } }

/-- The machine after a node construction of word tree `k`: tree, SET flags, cursor and node count. -/
def State.withWordNode (s : State) (k : TreeId) (b : WordDraft × Cursor × Nat) : State :=
  { s with
    wt := s.wt.set k b.1.tree
    work := { s.work with marked := b.1.marked, cur := b.2.1, count := b.2.2 } }

/-- WT_EMPTY (42_word_tree.md R200, R210): one bit, and the tree is empty. -/
def execWtEmpty (k : TreeId) (s : State) : Host.Outcome State Fault Refusal :=
  .next (s.withWordTree k (wordEmpty (s.wt.get k)) (s.work.cur.skip 1))

/-- WT_PRESENT (42_word_tree.md R200): its bit, then the rest of the tree. -/
def execWtPresent (k : TreeId) (s : State) : Host.Outcome State Fault Refusal :=
  .next (s.orRaise (wordPresent (s.cfg.cap k) (clearWordTree (s.wt.get k)) (s.work.cur.skip 1))
    fun (w, c) => s.withWordTree k w c)

/-- WNODE_LEAF (42_word_tree.md R201) at the position the working state holds. -/
def execWnodeLeaf (k : TreeId) (s : State) : Host.Outcome State Fault Refusal :=
  .next (s.orRaise
    (wordLeaf (s.cfg.cap k) s.work.lo s.work.hi { tree := s.wt.get k, marked := s.work.marked }
      (s.work.cur.skip 1) s.work.codePfx s.work.codeLen)
    (s.withWordNode k))

/-- WNODE_INTERNAL (42_word_tree.md R201) at the position the working state holds, with both subtrees. -/
def execWnodeInternal (k : TreeId) (s : State) : Host.Outcome State Fault Refusal :=
  .next (s.orRaise
    (wordInternal (s.cfg.cap k) (wordNode (s.cfg.cap k) s.work.lo s.work.hi (s.cfg.cap k))
      { tree := s.wt.get k, marked := s.work.marked } (s.work.cur.skip 1) s.work.codePfx s.work.codeLen)
    (s.withWordNode k))

/-- WORD_BUILD (42_word_tree.md R200), with CAP_k. -/
def execWordBuild (k : TreeId) (s : State) : Host.Outcome State Fault Refusal :=
  .next (s.orRaise (buildWordTree (s.cfg.cap k) (s.wt.get k) s.work.cur)
    fun (w, c) => s.withWordTree k w c)

/-- The machine after WordGetCode on tree `k`: the value, the tree with its slots, and the cursor. -/
def State.withWordCode (s : State) (k : TreeId) (g : Half × WordTree × Cursor) : State :=
  { s with wt := s.wt.set k g.2.1, work := { s.work with cur := g.2.2, res := g.1 } }

/-- WORD_GETCODE (42_word_tree.md R206). Executed on its own it reads the tree as State holds it, in every phase
and whatever BUILT is; that is the model's choice (log 11, 10_state.md R39). -/
def execWordGetcode (k : TreeId) (s : State) : Host.Outcome State Fault Refusal :=
  .next (s.withWordCode k (wordGetCode (s.wt.get k) s.work.cur))

/-- WORD_RESET (42_word_tree.md R209); PHASE and BUILT are not looked at (log 11). -/
def execWordReset (k : TreeId) (s : State) : Host.Outcome State Fault Refusal :=
  .next { s with wt := s.wt.set k (wordReset (s.wt.get k)) }

end Sys2Proof.Machine
end

