-- ==== Sys2Proof/Machine/Frame.lean ====
section
/-! DEFINITION. Tree bootstrap and frame decoder (43_frame_decoder.md), and the meanings of BUILD_TREES,
DECODE_FRAME, BLK_MONO, BLK_FULL, BLK_SKIP, BLK_FILL, FULL_V2, FULL_V4_M0, FULL_V4_M1 and FULL_V4_M2. -/

namespace Sys2Proof.Machine

/-- Builds tree `k` of the bootstrap blob (43_frame_decoder.md R240). -/
def buildOne (g : Cfg) (k : TreeId) (b : Trees × Cursor) : Except Cause (Trees × Cursor) := do
  let (w, c) ← buildWordTree (g.cap k) (b.1.get k) b.2
  pure (b.1.set k w, c)

/-- The four trees in the order MMAP, MCLR, FULL, TYPE (30_encoding.md R100, 43_frame_decoder.md R240). -/
def buildFour (g : Cfg) (wt : Trees) (c : Cursor) : Except Cause (Trees × Cursor) := do
  let b ← buildOne g .mmap (wt, c)
  let b ← buildOne g .mclr b
  let b ← buildOne g .full b
  buildOne g .typ b

/-- WT[k].BUILT <- 1 for all four (43_frame_decoder.md R240). -/
def markBuilt (wt : Trees) : Trees := wt.map fun _ w => { w with built := true }

/-- The trees a bootstrap blob holds: built, and checked for overrun (43_frame_decoder.md R240). -/
def bootstrap (g : Cfg) (wt : Trees) (blob : List Byte) : Except Cause Trees := do
  let (wt, c) ← buildFour g wt (Cursor.over blob)
  if c.ovr then .error .bootstrapOverrun else pure (markBuilt wt)

/-- BUILD_TREES (43_frame_decoder.md R240), admitted in CONFIGURED only (30_encoding.md R94). -/
def execBuildTrees (blob : List Byte) (s : State) : Host.Outcome State Fault Refusal :=
  .next (s.whenAdmitted (s.phase == .configured)
    (s.orRaise (bootstrap s.cfg s.wt blob) fun wt => State.finish { s with wt := wt, phase := .ready }))

/-- What the frame decoder works on: the trees with their MRU slots, the cursor, S, DIRTY and blk. -/
structure FrameState where
  wt : Trees
  cur : Cursor
  surf : Memory Byte
  dirty : List Nat
  blk : Nat
deriving DecidableEq, Repr

/-- `WordGetCode(WT[k], c)` inside a frame. -/
def FrameState.getCode (k : TreeId) (f : FrameState) : Half × FrameState :=
  let (v, w, c) := wordGetCode (f.wt.get k) f.cur
  (v, { f with wt := f.wt.set k w, cur := c })

/-- The four pixels of a logical row, columns 0 to 3. -/
structure Row where
  p0 : Byte
  p1 : Byte
  p2 : Byte
  p3 : Byte
deriving DecidableEq, Repr

/-- One surface row of `PutRow`: four `SurfWrite`s at column `4·bx` of row `y` (43_frame_decoder.md R245). -/
def putPixels (g : Cfg) (x y : Nat) (row : Row) (surf : Memory Byte) : Memory Byte :=
  surfWrite g (x + 3) y row.p3 (surfWrite g (x + 2) y row.p2
    (surfWrite g (x + 1) y row.p1 (surfWrite g (x + 0) y row.p0 surf)))

/-- The first surface row of logical row `r` of block `blk`: `by·4·D + r·D` (43_frame_decoder.md R242, R245). -/
def rowTop (g : Cfg) (blk r : Nat) : Nat := blk / g.bw * 4 * g.d + r * g.d

/-- `PutRow(blk, r, p0, p1, p2, p3)` (43_frame_decoder.md R245): D surface rows. -/
def putRow (g : Cfg) (blk r : Nat) (row : Row) (surf : Memory Byte) : Memory Byte :=
  (List.range g.d).foldl (fun m j => putPixels g (4 * (blk % g.bw)) (rowTop g blk r + j) row m) surf

/-- PutRow of the four logical rows of block `blk`. -/
def putBlock (g : Cfg) (blk : Nat) (rows : Nat → Row) (surf : Memory Byte) : Memory Byte :=
  putRow g blk 3 (rows 3) (putRow g blk 2 (rows 2) (putRow g blk 1 (rows 1) (putRow g blk 0 (rows 0) surf)))

/-- Row `r` of a MONO block (30_encoding.md R105, 43_frame_decoder.md R246): mask bit 1 selects `hi`. -/
def monoRow (c m : Half) (r : Nat) : Row :=
  { p0 := if m.getLsbD (4 * r) then highByte c else lowByte c
    p1 := if m.getLsbD (4 * r + 1) then highByte c else lowByte c
    p2 := if m.getLsbD (4 * r + 2) then highByte c else lowByte c
    p3 := if m.getLsbD (4 * r + 3) then highByte c else lowByte c }

/-- `BlockMono(blk)` (43_frame_decoder.md R246): the colour pair is read first, the mask second. -/
def blockMono (g : Cfg) (f : FrameState) : FrameState :=
  let (c, f) := f.getCode .mclr
  let (m, f) := f.getCode .mmap
  { f with surf := putBlock g f.blk (monoRow c m) f.surf }

/-- A row of two 16-bit codes, each low byte first: `left` in columns 0 and 1, `right` in columns 2 and 3. -/
def pairRow (left right : Half) : Row :=
  { p0 := lowByte left, p1 := highByte left, p2 := lowByte right, p3 := highByte right }

/-- A row of one code, its low byte in columns 0 and 1 and its high byte in columns 2 and 3. -/
def wideRow (v : Half) : Row :=
  { p0 := lowByte v, p1 := lowByte v, p2 := highByte v, p3 := highByte v }

/-- Row `r` of FULL mode 0 (43_frame_decoder.md R248): the first code A goes right, the second B left. -/
def fullRow0 (g : Cfg) (f : FrameState) (r : Nat) : FrameState :=
  let (a, f) := f.getCode .full
  let (b, f) := f.getCode .full
  { f with surf := putRow g f.blk r (pairRow b a) f.surf }

/-- `BlockFull(blk, 0)` (43_frame_decoder.md R248). -/
def blockFull0 (g : Cfg) (f : FrameState) : FrameState :=
  fullRow0 g (fullRow0 g (fullRow0 g (fullRow0 g f 0) 1) 2) 3

/-- One half of FULL mode 1 (43_frame_decoder.md R249): one code for rows `r` and `r + 1`. -/
def fullHalf1 (g : Cfg) (f : FrameState) (r : Nat) : FrameState :=
  let (p, f) := f.getCode .full
  { f with surf := putRow g f.blk (r + 1) (wideRow p) (putRow g f.blk r (wideRow p) f.surf) }

/-- `BlockFull(blk, 1)` (43_frame_decoder.md R249). -/
def blockFull1 (g : Cfg) (f : FrameState) : FrameState := fullHalf1 g (fullHalf1 g f 0) 2

/-- One half of FULL mode 2 (43_frame_decoder.md R250): P2 is read first and goes right, P1 left, for rows
`r` and `r + 1`. -/
def fullHalf2 (g : Cfg) (f : FrameState) (r : Nat) : FrameState :=
  let (p2, f) := f.getCode .full
  let (p1, f) := f.getCode .full
  { f with surf := putRow g f.blk (r + 1) (pairRow p1 p2) (putRow g f.blk r (pairRow p1 p2) f.surf) }

/-- `BlockFull(blk, 2)` (43_frame_decoder.md R250). -/
def blockFull2 (g : Cfg) (f : FrameState) : FrameState := fullHalf2 g (fullHalf2 g f 0) 2

/-- `BlockFull(blk, mode)`: modes 0, 1 and 2 (43_frame_decoder.md R247 to R250). -/
def blockFull (g : Cfg) (mode : Nat) (f : FrameState) : FrameState :=
  if mode = 1 then blockFull1 g f else if mode = 2 then blockFull2 g f else blockFull0 g f

/-- `BlockFill(blk, col)` (43_frame_decoder.md R252). -/
def blockFill (g : Cfg) (col : Byte) (f : FrameState) : FrameState :=
  { f with surf := putBlock g f.blk (fun _ => { p0 := col, p1 := col, p2 := col, p3 := col }) f.surf }

/-- A block that is written: its pixels, then DIRTY[blk] <- 1, then blk <- blk + 1
(43_frame_decoder.md R241, R253). -/
def paint (block : FrameState → FrameState) (f : FrameState) : FrameState :=
  let f := block f
  { f with dirty := markDirty f.blk f.dirty, blk := f.blk + 1 }

/-- A SKIP block: only blk advances (43_frame_decoder.md R251). -/
def skipBlock (f : FrameState) : FrameState := { f with blk := f.blk + 1 }

/-- `repeat n times` (43_frame_decoder.md R241). -/
def repeatBlock (block : FrameState → FrameState) : Nat → FrameState → FrameState
  | 0, f => f
  | n + 1, f => repeatBlock block n (block f)

/-- `min(RUNLEN[T[7:2]], NB − blk)` (43_frame_decoder.md R244). -/
def clampedRun (g : Cfg) (runidx : BitVec 6) (blk : Nat) : Nat := min (runLen runidx) (g.nb - blk)

/-- A run of MONO blocks. -/
def runMono (g : Cfg) (runidx : BitVec 6) (f : FrameState) : FrameState :=
  repeatBlock (paint (blockMono g)) (clampedRun g runidx f.blk) f

/-- A run of SKIP blocks. -/
def runSkip (g : Cfg) (runidx : BitVec 6) (f : FrameState) : FrameState :=
  repeatBlock skipBlock (clampedRun g runidx f.blk) f

/-- A run of FILL blocks. -/
def runFill (g : Cfg) (runidx : BitVec 6) (col : Byte) (f : FrameState) : FrameState :=
  repeatBlock (paint (blockFill g col)) (clampedRun g runidx f.blk) f

/-- `FullSel(c)` (43_frame_decoder.md R247, 30_encoding.md R104): the mode, and the cursor after the
selector bits. -/
def fullSel (sv : SubVer) (c : Cursor) : Nat × Cursor :=
  match sv with
  | .v2 => (0, c)
  | .v4 =>
    if c.readBit.1 then (1, c.readBit.2)
    else if c.readBit.2.readBit.1 then (2, c.readBit.2.readBit.2)
    else (0, c.readBit.2.readBit.2)

/-- `n` FULL blocks of one mode. -/
def fullBlocks (g : Cfg) (mode n : Nat) (f : FrameState) : FrameState :=
  repeatBlock (paint (blockFull g mode)) n f

/-- A run of FULL blocks: the selector once, then the blocks (43_frame_decoder.md R247). -/
def runFull (g : Cfg) (runidx : BitVec 6) (f : FrameState) : FrameState :=
  let (mode, c) := fullSel g.subver f.cur
  fullBlocks g mode (clampedRun g runidx f.blk) { f with cur := c }

/-- One block run: a type code and its dispatch (43_frame_decoder.md R241, R243). -/
def blockRun (g : Cfg) (f : FrameState) : FrameState :=
  let (t, f) := f.getCode .typ
  match decodeTypeCode t with
  | .blkMono runidx _ => runMono g runidx f
  | .blkFull runidx _ => runFull g runidx f
  | .blkSkip runidx _ => runSkip g runidx f
  | .blkFill runidx color => runFill g runidx color f
  | _ => f

/-- `while blk < NB` (43_frame_decoder.md R241). A run covers at least one block, so NB runs are enough
(R475; log 20). -/
def frameLoop (g : Cfg) : Nat → FrameState → FrameState
  | 0, f => f
  | n + 1, f => if f.blk < g.nb then frameLoop g n (blockRun g f) else f

/-- The frame decoder's state at frame start (43_frame_decoder.md R241): MRU slots reset, DIRTY cleared,
a new cursor, blk = 0. -/
def frameStart (wt : Trees) (surf : Memory Byte) (vid : List Byte) : FrameState :=
  { wt := wt.map fun _ w => wordReset w, cur := Cursor.over vid, surf := surf, dirty := [], blk := 0 }

/-- A whole frame, checked for overrun (43_frame_decoder.md R241). -/
def decodeFrame (g : Cfg) (wt : Trees) (surf : Memory Byte) (vid : List Byte) :
    Except Cause FrameState :=
  let f := frameLoop g g.nb (frameStart wt surf vid)
  if f.cur.ovr then .error .frameOverrun else .ok f

/-- DECODE_FRAME (43_frame_decoder.md R241), admitted in READY only (30_encoding.md R94). -/
def execDecodeFrame (vid : List Byte) (s : State) : Host.Outcome State Fault Refusal :=
  .next (s.whenAdmitted (s.phase == .ready)
    (s.orRaise (decodeFrame s.cfg s.wt s.surf vid) fun f =>
      State.finish { s with wt := f.wt, surf := f.surf, dirty := f.dirty, scan := 0 }))

/-- The frame decoder's view of the machine while a block run is executed. -/
def State.frame (s : State) : FrameState :=
  { wt := s.wt, cur := s.work.cur, surf := s.surf, dirty := s.dirty, blk := s.work.blk }

/-- The machine with that view replaced, `n` blocks left in the run and the Full mode `mode`. -/
def State.withFrame (s : State) (f : FrameState) (n mode : Nat) : State :=
  { s with
    wt := f.wt, surf := f.surf, dirty := f.dirty
    work := { s.work with cur := f.cur, blk := f.blk, run := n, mode := mode } }

/-- BLK_MONO (43_frame_decoder.md R246): the run of the type code at the working state. Neither this row nor
any other BLK or FULL row looks at PHASE or BUILT when it is executed on its own; that is the model's choice
(log 11). Inside DECODE_FRAME the phase is READY (30_encoding.md R94, 10_state.md R39). -/
def execBlkMono (runidx : BitVec 6) (s : State) : Host.Outcome State Fault Refusal :=
  .next (s.withFrame (runMono s.cfg runidx s.frame) 0 s.work.mode)

/-- BLK_FULL (43_frame_decoder.md R247): the selector, then the run. -/
def execBlkFull (runidx : BitVec 6) (s : State) : Host.Outcome State Fault Refusal :=
  .next (s.withFrame (runFull s.cfg runidx s.frame) 0 (fullSel s.cfg.subver s.work.cur).1)

/-- BLK_SKIP (43_frame_decoder.md R251). -/
def execBlkSkip (runidx : BitVec 6) (s : State) : Host.Outcome State Fault Refusal :=
  .next (s.withFrame (runSkip s.cfg runidx s.frame) 0 s.work.mode)

/-- BLK_FILL (43_frame_decoder.md R252). -/
def execBlkFill (runidx : BitVec 6) (color : Byte) (s : State) : Host.Outcome State Fault Refusal :=
  .next (s.withFrame (runFill s.cfg runidx color s.frame) 0 s.work.mode)

/-- A selector that chose `mode` and left the cursor `c`: the blocks left in the run, inside the grid, are
decoded in that mode (43_frame_decoder.md R247 to R250). PHASE and BUILT are not looked at, as for BLK_MONO
(log 11). -/
def State.fullRun (s : State) (mode : Nat) (c : Cursor) : State :=
  let f := { s.frame with cur := c }
  s.withFrame (fullBlocks s.cfg mode (min s.work.run (s.cfg.nb - f.blk)) f) 0 mode

/-- FULL_V2 (43_frame_decoder.md R247, R248): no selector bits, mode 0. -/
def execFullV2 (s : State) : Host.Outcome State Fault Refusal := .next (s.fullRun 0 s.work.cur)

/-- FULL_V4_M1 (43_frame_decoder.md R247, R249): selector `1`. -/
def execFullV4M1 (s : State) : Host.Outcome State Fault Refusal := .next (s.fullRun 1 (s.work.cur.skip 1))

/-- FULL_V4_M2 (43_frame_decoder.md R247, R250): selector `0 1`. -/
def execFullV4M2 (s : State) : Host.Outcome State Fault Refusal := .next (s.fullRun 2 (s.work.cur.skip 2))

/-- FULL_V4_M0 (43_frame_decoder.md R247, R248): selector `0 0`. -/
def execFullV4M0 (s : State) : Host.Outcome State Fault Refusal := .next (s.fullRun 0 (s.work.cur.skip 2))

end Sys2Proof.Machine
end

