-- ==== Sys2Proof/Machine/Manage.lean ====
section
/-! DEFINITION. The commands that manage the unit (48_machine_laws.md R477): CONFIGURE
(47_host_interface.md R380), and the reserved command words (30_encoding.md R95). -/

namespace Sys2Proof.Machine

/-- SUBVER from SIG: "SMK2" is V2, "SMK4" is V4, any other value is none (47_host_interface.md R380). -/
def subVerOf (sig : Sig) : Option SubVer :=
  if sig.b0 = 0x53 ∧ sig.b1 = 0x4D ∧ sig.b2 = 0x4B then
    if sig.b3 = 0x32 then some .v2 else if sig.b3 = 0x34 then some .v4 else none
  else none

/-- The configuration registers CONFIGURE writes (47_host_interface.md R380). -/
def cfgOf (ops : ConfigOps) (sv : SubVer) : Cfg :=
  { subver := sv, w := ops.w, h := ops.h, flags := ops.flags
    szMmap := ops.szMmap, szMclr := ops.szMclr, szFull := ops.szFull, szType := ops.szType
    audio := ops.audio }

/-- CONFIGURE's effect for a recognised signature (47_host_interface.md R380). -/
def State.configure (s : State) (ops : ConfigOps) (sv : SubVer) : State :=
  State.finish
    { s with
      cfg := cfgOf ops sv
      wt := s.wt.map fun _ w => { w with built := false }
      surf := Memory.blank .init
      dirty := []
      scan := 0
      pal := Memory.blank .init
      palDirty := false
      phase := .configured }

/-- CONFIGURE (47_host_interface.md R380), admitted in UNCONFIGURED only (30_encoding.md R94). -/
def execConfigure (ops : ConfigOps) (s : State) : Host.Outcome State Fault Refusal :=
  .next (s.whenAdmitted (s.phase == .unconfigured)
    (match subVerOf ops.sig with
     | none => s.raise .badSignature
     | some sv => s.configure ops sv))

/-- RESERVED_CMD (30_encoding.md R95): refused with ILLEGAL_COMMAND in every phase. -/
def execReservedCmd (s : State) : Host.Outcome State Fault Refusal := .next (s.report .illegalCommand)

end Sys2Proof.Machine
end

