-- ==== Sys2Proof/Machine/Palette.lean ====
section
/-! DEFINITION. The palette unpacker (45_palette.md) and the meanings of UNPACK_PALETTE, ACK_PALETTE,
PAL_SKIP, PAL_COPY and PAL_LIT. -/

namespace Sys2Proof.Machine

/-- What stays fixed while a chunk is unpacked: its bytes B, `len = 4·B[0]`, and OLD (45_palette.md R310). -/
structure PalChunk where
  buf : List Byte
  len : Nat
  old : Memory Rgb
deriving DecidableEq, Repr

/-- What a record changes: PAL, p and e (45_palette.md R310). -/
structure PalState where
  pal : Memory Rgb
  pos : Nat
  entry : Nat
deriving DecidableEq, Repr

/-- `Byte(q)` (45_palette.md R311): bounded by `len`, not by the buffer. In a command `len` is at most the
buffer's length (R310); a record executed on its own with `len` above it reads 0 past the buffer, where
20_memory.md R61 gives no byte (log 27). -/
def PalChunk.byte (k : PalChunk) (q : Nat) : Except Cause Byte :=
  if k.len ≤ q then .error .palTrunc else .ok (k.buf.getD q 0)

/-- `PalSkip(ctl)` after the control byte (45_palette.md R313), with n = ctl[6:0]. -/
def palSkip (n : BitVec 7) (p : PalState) : Except Cause PalState :=
  if 256 < p.entry + (n.toNat + 1) then .error .palOvershoot
  else .ok { p with entry := p.entry + (n.toNat + 1) }

/-- `for i in 0..n−1: PAL[e + i] <- OLD[SRC + i]` (45_palette.md R314). -/
def copyEntries (old : Memory Rgb) (src e : Nat) : Nat → Memory Rgb → Memory Rgb
  | 0, pal => pal
  | n + 1, pal => (copyEntries old src e n pal).write (e + n) (entryAt old (src + n))

/-- `PalCopy(ctl)` after the control byte (45_palette.md R314), with n = ctl[5:0]. -/
def palCopy (k : PalChunk) (n : BitVec 6) (p : PalState) : Except Cause PalState :=
  match k.byte p.pos with
  | .error cause => .error cause
  | .ok src =>
    if 256 < p.entry + (n.toNat + 1) then .error .palOvershoot
    else if 256 < src.toNat + (n.toNat + 1) then .error .palCopyRange
    else .ok
      { pal := copyEntries k.old src.toNat p.entry (n.toNat + 1) p.pal
        pos := p.pos + 1
        entry := p.entry + (n.toNat + 1) }

/-- The colour of a literal: each 6-bit component upscaled, bits 7:6 of the G and B bytes ignored
(30_encoding.md R107, 45_palette.md R315). -/
def literalColour (r6 : BitVec 6) (gb bb : Byte) : Rgb :=
  { r := up6 r6, g := up6 (gb.extractLsb' 0 6), b := up6 (bb.extractLsb' 0 6) }

/-- `PalLiteral(ctl)` after the control byte (45_palette.md R315), with R6 = ctl[5:0]. -/
def palLiteral (k : PalChunk) (r6 : BitVec 6) (p : PalState) : Except Cause PalState := do
  let gb ← k.byte p.pos
  let bb ← k.byte (p.pos + 1)
  pure
    { pal := p.pal.write p.entry (literalColour r6 gb bb)
      pos := p.pos + 2
      entry := p.entry + 1 }

/-- One record: the control byte and its dispatch (45_palette.md R310). -/
def palRecord (k : PalChunk) (p : PalState) : Except Cause PalState := do
  let ctl ← k.byte p.pos
  let p := { p with pos := p.pos + 1 }
  match decodePalByte ctl with
  | .palSkip n => palSkip n p
  | .palCopy n => palCopy k n p
  | .palLit r6 => palLiteral k r6 p
  | _ => .ok p

/-- `while e < 256` (45_palette.md R310). Every record moves e, so 256 records are enough
(R316; log 20). -/
def palLoop (k : PalChunk) : Nat → PalState → Except Cause PalState
  | 0, p => .ok p
  | n + 1, p => if p.entry < 256 then (do let q ← palRecord k p; palLoop k n q) else .ok p

/-- `len = 4·B[0]`, checked (45_palette.md R310). -/
def palLength (chunk : List Byte) : Except Cause Nat :=
  match chunk with
  | [] => .error .palLen
  | b :: _ =>
    if 4 * b.toNat = 0 ∨ chunk.length < 4 * b.toNat then .error .palLen else .ok (4 * b.toNat)

/-- A whole chunk: the new palette and CONSUMED (45_palette.md R310, R312). -/
def unpackPalette (pal : Memory Rgb) (chunk : List Byte) : Except Cause (Memory Rgb × Nat) := do
  let len ← palLength chunk
  let p ← palLoop { buf := chunk, len := len, old := pal } 256 { pal := pal, pos := 1, entry := 0 }
  pure (p.pal, len)

/-- UNPACK_PALETTE (45_palette.md R310), admitted in CONFIGURED and READY (30_encoding.md R94). -/
def execUnpackPalette (chunk : List Byte) (s : State) : Host.Outcome State Fault Refusal :=
  .next (s.whenAdmitted s.phase.isOpen
    (s.orRaise (unpackPalette s.pal chunk) fun (pal, len) =>
      State.finish { s with pal := pal, palDirty := true, consumed := BitVec.ofNat 32 len }))

/-- ACK_PALETTE (45_palette.md R317), admitted in CONFIGURED and READY (30_encoding.md R94). -/
def execAckPalette (s : State) : Host.Outcome State Fault Refusal :=
  .next (s.whenAdmitted s.phase.isOpen (State.finish { s with palDirty := false }))

/-- The chunk of the running UNPACK_PALETTE. -/
def State.palChunk (s : State) : PalChunk :=
  { buf := s.work.cur.buf, len := s.work.palLen, old := s.work.old }

/-- The record state of the running UNPACK_PALETTE, its control byte consumed. -/
def State.palState (s : State) : PalState :=
  { pal := s.pal, pos := s.work.palPos + 1, entry := s.work.palEntry }

/-- The machine with PAL, p and e replaced. -/
def State.withPal (s : State) (p : PalState) : State :=
  { s with pal := p.pal, work := { s.work with palPos := p.pos, palEntry := p.entry } }

/-- PAL_SKIP (45_palette.md R313) at the working state. -/
def execPalSkip (n : BitVec 7) (s : State) : Host.Outcome State Fault Refusal :=
  .next (s.orRaise (palSkip n s.palState) s.withPal)

/-- PAL_COPY (45_palette.md R314) at the working state. -/
def execPalCopy (n : BitVec 6) (s : State) : Host.Outcome State Fault Refusal :=
  .next (s.orRaise (palCopy s.palChunk n s.palState) s.withPal)

/-- PAL_LIT (45_palette.md R315) at the working state. -/
def execPalLit (r6 : BitVec 6) (s : State) : Host.Outcome State Fault Refusal :=
  .next (s.orRaise (palLiteral s.palChunk r6 s.palState) s.withPal)

end Sys2Proof.Machine
end

