-- ==== Sys2Proof/Machine/Dispatch.lean ====
section
/-! DEFINITION. One arm per constructor of Instr: what each row of spec/opcode_table.json does. -/

namespace Sys2Proof.Machine

def exec (i : Instr) (s : State) : Host.Outcome State Fault Refusal :=
  match i with
  | .configure ops => Sys2Proof.Machine.execConfigure ops s
  | .buildTrees blob => Sys2Proof.Machine.execBuildTrees blob s
  | .decodeFrame vid => Sys2Proof.Machine.execDecodeFrame vid s
  | .unpackPalette chunk => Sys2Proof.Machine.execUnpackPalette chunk s
  | .decodeAudio track chunk unpacked => Sys2Proof.Machine.execDecodeAudio track chunk unpacked s
  | .getDirtyRect => Sys2Proof.Machine.execGetDirtyRect s
  | .ackPalette => Sys2Proof.Machine.execAckPalette s
  | .reservedCmd _ => Sys2Proof.Machine.execReservedCmd s
  | .blkMono runidx _ => Sys2Proof.Machine.execBlkMono runidx s
  | .blkFull runidx _ => Sys2Proof.Machine.execBlkFull runidx s
  | .blkSkip runidx _ => Sys2Proof.Machine.execBlkSkip runidx s
  | .blkFill runidx color => Sys2Proof.Machine.execBlkFill runidx color s
  | .fullV2 => Sys2Proof.Machine.execFullV2 s
  | .fullV4M1 => Sys2Proof.Machine.execFullV4M1 s
  | .fullV4M2 => Sys2Proof.Machine.execFullV4M2 s
  | .fullV4M0 => Sys2Proof.Machine.execFullV4M0 s
  | .palSkip n => Sys2Proof.Machine.execPalSkip n s
  | .palCopy n => Sys2Proof.Machine.execPalCopy n s
  | .palLit r6 => Sys2Proof.Machine.execPalLit r6 s
  | .btEmpty dst => Sys2Proof.Machine.execBtEmpty dst s
  | .btPresent dst => Sys2Proof.Machine.execBtPresent dst s
  | .bnodeLeaf dst => Sys2Proof.Machine.execBnodeLeaf dst s
  | .bnodeInternal dst => Sys2Proof.Machine.execBnodeInternal dst s
  | .wtEmpty k => Sys2Proof.Machine.execWtEmpty k s
  | .wtPresent k => Sys2Proof.Machine.execWtPresent k s
  | .wnodeLeaf k => Sys2Proof.Machine.execWnodeLeaf k s
  | .wnodeInternal k => Sys2Proof.Machine.execWnodeInternal k s
  | .audAbsent => Sys2Proof.Machine.execAudAbsent s
  | .audPresent => Sys2Proof.Machine.execAudPresent s
  | .readBit => Sys2Proof.Machine.execReadBit s
  | .readBits n => Sys2Proof.Machine.execReadBits n s
  | .peek8 => Sys2Proof.Machine.execPeek8 s
  | .skip n => Sys2Proof.Machine.execSkip n s
  | .byteBuild dst => Sys2Proof.Machine.execByteBuild dst s
  | .byteGetcode src => Sys2Proof.Machine.execByteGetcode src s
  | .wordBuild k => Sys2Proof.Machine.execWordBuild k s
  | .wordGetcode k => Sys2Proof.Machine.execWordGetcode k s
  | .wordReset k => Sys2Proof.Machine.execWordReset k s

end Sys2Proof.Machine
end

