-- ==== Sys2Proof/Machine/Fetch.lean ====
section
/-! DEFINITION. Where the CORE takes its next instruction from (30_encoding.md R90, R92; 10_state.md R21):
the command port, or a syntax element of the running command at the working state (log 10). -/

namespace Sys2Proof.Machine

/-- The next two stream bits, zero past the end (40_bitcursor.md R141). -/
def Cursor.ahead (c : Cursor) : List Bool := [c.bit c.pos, c.bit (c.pos + 1)]

/-- What a fetch finds. -/
inductive Fetched where
  | idle                      -- the port is idle
  | found (e : Encoded)       -- an encoding
  | ended (cause : Cause)     -- the running command ends: no byte is left for a record
deriving DecidableEq, Repr

/-- The palette control byte at p, bounded by len (45_palette.md R311); 0 where p is below len and past the
buffer, which no command leads to (log 27). -/
def State.fetchRecord (s : State) : Fetched :=
  if s.work.palLen ≤ s.work.palPos then .ended .palTrunc
  else .found (.palByte (s.work.cur.buf.getD s.work.palPos 0))

/-- The fetch. -/
def State.fetch (s : State) : Fetched :=
  match s.expect with
  | .command =>
    match s.port with
    | none => .idle
    | some c => .found (.command c)
  | .blockRun => .found (.typeCode s.work.tcode)
  | .palRecord => s.fetchRecord
  | .fullSel => .found (.bits (.fullSel s.cfg.subver) s.work.cur.ahead)
  | .btHeader dst => .found (.bits (.btHeader dst) s.work.cur.ahead)
  | .btNode dst => .found (.bits (.btNode dst) s.work.cur.ahead)
  | .wtHeader k => .found (.bits (.wtHeader k) s.work.cur.ahead)
  | .wtNode k => .found (.bits (.wtNode k) s.work.cur.ahead)
  | .audHeader => .found (.bits .audHeader s.work.cur.ahead)

/-- The machine once the sequencer has taken a syntax element: it looks at the port again (log 10). -/
def State.taken (s : State) : State := { s with expect := .command }

/-- The machine with an encoding placed where the next fetch finds it (log 12). A command goes to the
port; a type code to T; a control byte to the palette chunk at p, with the two bytes a literal may need;
stream bits to the buffer of a new cursor. -/
def State.place (s : State) (e : Encoded) : State :=
  match e with
  | .command c => { s with resetPin := false, expect := .command, port := some c }
  | .typeCode t => { s with resetPin := false, expect := .blockRun, work := { s.work with tcode := t } }
  | .palByte ctl =>
    { s with
      resetPin := false, expect := .palRecord
      work :=
        { s.work with
          cur := { s.work.cur with buf := List.replicate s.work.palPos 0 ++ [ctl, 0, 0] }
          palLen := s.work.palPos + 3 } }
  | .bits _ _ => s

end Sys2Proof.Machine
end

