-- ==== Sys2Proof/Machine/Step.lean ====
section
/-! DEFINITION. One step: the reset input, or the next instruction, fetched, decoded and executed
(30_encoding.md R92, 70_reset_and_hazards.md R440, R441). An idle port leaves the machine as it is. -/

namespace Sys2Proof.Machine

/-- An instruction runs when it is well-formed; the one command that can fail this has a buffer longer
than a u32 LEN can say (30_encoding.md R90; log 13). -/
def execWellFormed (i : Instr) (s : State) : Host.Outcome State Fault Refusal :=
  if i.wf then exec i s else .fault .operandTooLong

/-- A fetched encoding decoded and executed. -/
def execEncoded (e : Encoded) (s : State) : Host.Outcome State Fault Refusal :=
  match decode e with
  | .ok i => execWellFormed i s
  | .error err => .refused (.notDecoded err)

/-- One step of the CORE. -/
def step (s : State) : Host.Outcome State Fault Refusal :=
  if s.resetPin then .next s.afterReset
  else
    match s.fetch with
    | .idle => .next s
    | .found e => execEncoded e s.taken
    | .ended cause => .next (s.taken.raise cause)

/-- `s` with the instruction whose bits are `w` where `step` fetches its next one (log 12). -/
def State.withFetchWord (s : State) (nbits w : Nat) : State :=
  match tableEncoding nbits w with
  | none => s
  | some e => s.place e

end Sys2Proof.Machine
end

