-- ==== Sys2Proof/Machine/HostView.lean ====
section
/-! DEFINITION. The host's side of the port: issuing a command (30_encoding.md R92), asserting the reset
input (70_reset_and_hazards.md R440), what it may read between commands (47_host_interface.md R386), and
the serialisation of OUT to a byte stream (46_audio.md R348). -/

namespace Sys2Proof.Machine

/-- The host issues a command: only while the port is idle (30_encoding.md R92). -/
def State.issue (s : State) (c : Command) : Option State :=
  match s.port with
  | none => some { s with port := some c }
  | some _ => none

/-- The platform asserts the reset input (70_reset_and_hazards.md R440). -/
def State.assertReset (s : State) : State := { s with resetPin := true }

/-- No command runs or waits: the host may read (47_host_interface.md R386). -/
def State.between (s : State) : Bool := s.port == none

/-- STATUS as the numbers (CODE, CAUSE), readable in every phase (47_host_interface.md R386). -/
def State.readStatus (s : State) : Option (BitVec 4 × Nat) :=
  if s.between then some (s.status.code.number, s.status.cause.number) else none

/-- PHASE as its number, readable in every phase (47_host_interface.md R386). -/
def State.readPhase (s : State) : Option (BitVec 2) :=
  if s.between then some s.phase.number else none

/-- S exists and is readable: every phase but UNCONFIGURED (47_host_interface.md R386, 10_state.md R40).
In FAILED the content is unspecified. -/
def State.storeReadable (s : State) : Bool := s.between && s.phase != .unconfigured

/-- Pixel (x, y) of S (47_host_interface.md R386, 10_state.md R28). -/
def State.readPixel (s : State) (x y : Nat) : Option Byte :=
  if s.storeReadable && decide (x < s.cfg.w.toNat) && decide (y < s.cfg.rows) then
    some (pixelAt s.surf (pixelAddr s.cfg x y))
  else none

/-- Entry `e` of PAL (47_host_interface.md R386, 10_state.md R31). -/
def State.readEntry (s : State) (e : Nat) : Option Rgb :=
  if s.storeReadable && decide (e < 256) then some (entryAt s.pal e) else none

/-- PAL_DIRTY (47_host_interface.md R386). -/
def State.readPalDirty (s : State) : Option Bool := if s.storeReadable then some s.palDirty else none

/-- The result fields, each that of the last command that produced it (47_host_interface.md R386,
70_reset_and_hazards.md R450; log 17): CONSUMED. -/
def State.readConsumed (s : State) : Option Word := if s.between then some s.consumed else none

/-- RECT; the inner `none` is NONE. -/
def State.readRect (s : State) : Option (Option Rect) := if s.between then some s.rect else none

/-- OUT. -/
def State.readOut (s : State) : Option (List Sample) := if s.between then some s.out else none

/-- The bytes of a sample (46_audio.md R348). -/
def Sample.size : Sample → Nat
  | .s8 _ => 1
  | .s16 _ => 2

/-- A sample serialised to a byte stream, 16-bit ones in PCM16_OUT_ORDER (46_audio.md R348; log 7). -/
def Sample.bytes : Sample → List Byte
  | .s8 v => [v]
  | .s16 v =>
    match Config.pcm16OutOrder with
    | .le => [lowByte v, highByte v]
    | .be => [highByte v, lowByte v]

/-- OUT as a byte stream. -/
def outBytes (out : List Sample) : List Byte := out.flatMap Sample.bytes

end Sys2Proof.Machine
end

