-- ==== Sys2Proof/Machine/Streams.lean ====
section
/-! DEFINITION. The bitstream syntax as data (30_encoding.md R97 to R100, R108): what a tree, a bootstrap
blob and an audio chunk look like as stream bits, and what each stands for, said without the machine.
The claims compare what the machine reads with these. -/

namespace Sys2Proof.Machine

/-- Stream bits in reading order; `none` is a bit of any value (`pad`, 30_encoding.md R97). -/
abbrev Pattern := List (Option Bool)

/-- Bits of fixed value. -/
def fixed (bs : List Bool) : Pattern := bs.map some

/-- The stream of `c` has the pattern's bits from bit `p` on. -/
def Cursor.shows (c : Cursor) (p : Nat) (pat : Pattern) : Prop :=
  ∀ k b, pat[k]? = some (some b) → c.bit (p + k) = b

/-- The bits of a u8 field, bit 0 first (30_encoding.md R97). -/
def byteBits (v : Byte) : List Bool := (List.range 8).map fun k => v.getLsbD k

/-- The bits of a u16 field, bit 0 first (30_encoding.md R97). -/
def halfBits (v : Half) : List Bool := (List.range 16).map fun k => v.getLsbD k

/-- A code tree: a leaf with its label, or an internal node (00_scope.md R11). -/
inductive CodeTree (α : Type) where
  | leaf (v : α)
  | fork (left right : CodeTree α)
deriving DecidableEq, Repr

/-- The number of nodes. -/
def CodeTree.count {α : Type} : CodeTree α → Nat
  | .leaf _ => 1
  | .fork l r => l.count + r.count + 1

/-- The labels of the leaves, left to right. -/
def CodeTree.labels {α : Type} : CodeTree α → List α
  | .leaf v => [v]
  | .fork l r => l.labels ++ r.labels

/-- The same tree with its labels changed. -/
def CodeTree.map {α β : Type} (f : α → β) : CodeTree α → CodeTree β
  | .leaf v => .leaf (f v)
  | .fork l r => .fork (l.map f) (r.map f)

/-- The leaves with their positions, the first node having position `i` (pre-order). -/
def CodeTree.places {α : Type} (i : Nat) : CodeTree α → List (Nat × α)
  | .leaf v => [(i, v)]
  | .fork l r => l.places (i + 1) ++ r.places (i + 1 + l.count)

/-- The label a whole code leads to; bit 0 goes left, bit 1 right (00_scope.md R11, Code). -/
def CodeTree.find {α : Type} : CodeTree α → List Bool → Option α
  | .leaf v, [] => some v
  | .leaf _, _ :: _ => none
  | .fork _ _, [] => none
  | .fork l _, false :: bs => l.find bs
  | .fork _ r, true :: bs => r.find bs

/-- The position of the leaf a whole code leads to, in pre-order. -/
def CodeTree.place {α : Type} : CodeTree α → List Bool → Nat
  | .fork l _, false :: bs => l.place bs + 1
  | .fork l r, true :: bs => r.place bs + 1 + l.count
  | _, _ => 0

/-- The node array of a code tree: pre-order, an internal node holding the node count of its left subtree
(41_byte_tree.md R171, 10_state.md R24). -/
def CodeTree.cells {w : Nat} : CodeTree (BitVec w) → List (Node w)
  | .leaf v => [.leaf v]
  | .fork l r => .internal l.count :: (l.cells ++ r.cells)

/-- What the prefix table holds for the peek `k`, at a node of position `i` and depth `d ≤ 8`: the leaf that
the bits of `k` lead to, or nothing where they pass depth 8 (41_byte_tree.md R172, R173, R175). -/
def CodeTree.entry {α : Type} (k : Nat) : CodeTree α → Nat → Nat → Option PfxEntry
  | .leaf _, i, d => some { node := i, len := d }
  | .fork l r, i, d =>
    if d < 8 then
      if k.testBit d then r.entry k (i + 1 + l.count) (d + 1) else l.entry k (i + 1) (d + 1)
    else none

/-- The prefix table of a code tree (41_byte_tree.md R172, R173). -/
def CodeTree.table {α : Type} (t : CodeTree α) : List PfxEntry :=
  (List.range 256).map fun k => (t.entry k 0 0).getD { node := 0, len := 0 }

/-- `BNode` as stream bits (30_encoding.md R98). -/
def CodeTree.nodeBits : CodeTree Byte → Pattern
  | .leaf v => some false :: fixed (byteBits v)
  | .fork l r => some true :: (l.nodeBits ++ r.nodeBits)

/-- A byte tree as the stream gives it: empty, or a code tree (30_encoding.md R98). -/
abbrev ByteCode := Option (CodeTree Byte)

/-- `ByteTree` as stream bits (30_encoding.md R98). -/
def byteTreeBits : ByteCode → Pattern
  | none => [some false]
  | some t => some true :: (t.nodeBits ++ [none])

/-- The byte tree it stands for (41_byte_tree.md R170 to R173). -/
def byteTreeOf : ByteCode → ByteTree
  | none => { empty := true, nodes := [], pfx := zeroPfx }
  | some t => { empty := false, nodes := t.cells, pfx := t.table }

/-- It fits BYTE_CAP (41_byte_tree.md R174). -/
def byteTreeFits : ByteCode → Prop
  | none => True
  | some t => t.count ≤ 511

/-- The byte a whole code of it stands for: of an empty tree, 0 for the code of no bits
(30_encoding.md R97, 41_byte_tree.md R180). -/
def byteCodeOf : ByteCode → List Bool → Option Byte
  | none, [] => some 0
  | none, _ :: _ => none
  | some t, bs => t.find bs

/-- A present word tree as the stream gives it: the two byte trees, the markers, and the code tree whose
leaves are pairs of a low code and a high code (30_encoding.md R99). -/
structure WordCode where
  lo : ByteCode
  hi : ByteCode
  mark : Tri Half
  tree : CodeTree (List Bool × List Bool)

/-- The byte trees fit, and every leaf's two codes lead to leaves of them. -/
def WordCode.legal (d : WordCode) : Prop :=
  byteTreeFits d.lo ∧ byteTreeFits d.hi ∧
  ∀ p ∈ d.tree.labels, (byteCodeOf d.lo p.1).isSome ∧ (byteCodeOf d.hi p.2).isSome

/-- The composed value of a leaf, `(hi << 8) | lo` (42_word_tree.md R201). -/
def WordCode.value (d : WordCode) (p : List Bool × List Bool) : Half :=
  ((byteCodeOf d.hi p.2).getD 0) ++ ((byteCodeOf d.lo p.1).getD 0)

/-- The code tree of the composed values. -/
def WordCode.values (d : WordCode) : CodeTree Half := d.tree.map d.value

/-- `WNode` as stream bits (30_encoding.md R99). -/
def wordNodeBits : CodeTree (List Bool × List Bool) → Pattern
  | .leaf p => some false :: (fixed p.1 ++ fixed p.2)
  | .fork l r => some true :: (wordNodeBits l ++ wordNodeBits r)

/-- The last leaf built whose value is the marker (42_word_tree.md R202). -/
def lastPlace (m : Half) (t : CodeTree Half) : Option Nat :=
  ((t.places 0).filter fun p => p.2 == m).getLast?.map Prod.fst

/-- The slots of the three markers, an unmatched one taking the next cell past `n` (42_word_tree.md R202,
R203), and the number of cells in the end. -/
def slotsOf (m : Tri Half) (t : CodeTree Half) : Tri Nat × Nat :=
  let n0 := t.count
  let n1 := if (lastPlace m.j0 t).isSome then n0 else n0 + 1
  let n2 := if (lastPlace m.j1 t).isSome then n1 else n1 + 1
  let n3 := if (lastPlace m.j2 t).isSome then n2 else n2 + 1
  ({ j0 := (lastPlace m.j0 t).getD n0, j1 := (lastPlace m.j1 t).getD n1, j2 := (lastPlace m.j2 t).getD n2 }, n3)

/-- The number of cells the tree needs, with those of the unmatched markers (42_word_tree.md R204). -/
def WordCode.total (d : WordCode) : Nat := (slotsOf d.mark d.values).2

/-- A value that is a marker is stored as 0 (42_word_tree.md R202). -/
def unmarked (m : Tri Half) (v : Half) : Half := if v = m.j0 ∨ v = m.j1 ∨ v = m.j2 then 0 else v

/-- The word tree a present one stands for, BUILT left as it was (42_word_tree.md R200 to R203). -/
def WordCode.built (d : WordCode) (flag : Bool) : WordTree :=
  { built := flag
    empty := false
    nodes := (d.values.map (unmarked d.mark)).cells ++ List.replicate (d.total - d.tree.count) (.leaf 0)
    pfx := d.values.table
    mark := d.mark
    slot := (slotsOf d.mark d.values).1 }

/-- `WordTree` as stream bits (30_encoding.md R99). -/
def wordTreeBits : Option WordCode → Pattern
  | none => [some false]
  | some d =>
    some true :: (byteTreeBits d.lo ++ byteTreeBits d.hi ++ fixed (halfBits d.mark.j0) ++
      fixed (halfBits d.mark.j1) ++ fixed (halfBits d.mark.j2) ++ wordNodeBits d.tree ++ [none])

/-- A word tree the stream gives is legal and fits its capacity (42_word_tree.md R204). -/
def wordTreeFits (cap : Nat) : Option WordCode → Prop
  | none => True
  | some d => d.legal ∧ d.total ≤ cap

/-- Stream bits at which the construction of a word tree passes a capacity, and the cause it raises: its LO tree
or, LO having fitted, its HI tree has more than 511 nodes, or, both having fitted, it needs more than `cap`
cells (41_byte_tree.md R174, 42_word_tree.md R200, R204). -/
inductive Overfull (cap : Nat) : Pattern → Cause → Prop where
  | lo (t : CodeTree Byte) : 511 < t.count →
      Overfull cap (some true :: byteTreeBits (some t)) .byteTreeCapacity
  | hi (lo : ByteCode) (t : CodeTree Byte) : byteTreeFits lo → 511 < t.count →
      Overfull cap (some true :: (byteTreeBits lo ++ byteTreeBits (some t))) .byteTreeCapacity
  | cells (d : WordCode) : d.legal → cap < d.total → Overfull cap (wordTreeBits (some d)) .wordTreeCapacity

/-- The trees that precede tree `k` in a bootstrap blob (30_encoding.md R100). -/
def treesBefore : TreeId → List TreeId
  | .mmap => []
  | .mclr => [.mmap]
  | .full => [.mmap, .mclr]
  | .typ => [.mmap, .mclr, .full]

/-- The word tree it stands for, over the tree `w` that was there before: an empty one has no node and a
cleared prefix table, and keeps BUILT, MARK and SLOT (42_word_tree.md R200, R210). -/
def wordTreeOf (w : WordTree) : Option WordCode → WordTree
  | none => { w with empty := true, nodes := [], pfx := zeroPfx }
  | some d => d.built w.built

/-- An audio chunk with data (30_encoding.md R108): ST and B16, the plane trees, the base samples, and for
each delta frame one code per plane. -/
structure ChunkCode where
  st : Bool
  b16 : Bool
  planes : List ByteCode
  left : Half
  right : Half
  frames : List (List (List Bool))

/-- NP (46_audio.md R340, R344). -/
def ChunkCode.np (d : ChunkCode) : Nat := (if d.st then 2 else 1) * (if d.b16 then 2 else 1)

/-- There are NP plane trees that fit, and every frame has NP codes, each leading to a leaf of its tree. -/
def ChunkCode.legal (d : ChunkCode) : Prop :=
  d.planes.length = d.np ∧ (∀ t ∈ d.planes, byteTreeFits t) ∧
  ∀ f ∈ d.frames, f.length = d.np ∧
    ∀ q, q < d.np → (byteCodeOf (d.planes.getD q none) (f.getD q [])).isSome

/-- A base sample as stream bits: 8 bits, or the high byte and then the low byte (46_audio.md R345). -/
def ChunkCode.baseBits (d : ChunkCode) (v : Half) : Pattern :=
  if d.b16 then fixed (byteBits (v.extractLsb' 8 8) ++ byteBits (v.extractLsb' 0 8))
  else fixed (byteBits (v.extractLsb' 0 8))

/-- The chunk as stream bits (30_encoding.md R108); the bases right first. -/
def ChunkCode.bits (d : ChunkCode) : Pattern :=
  some true :: some d.st :: some d.b16 ::
    (d.planes.flatMap byteTreeBits ++ (if d.st then d.baseBits d.right else []) ++ d.baseBits d.left ++
      d.frames.flatMap fun f => f.flatMap fixed)

/-- The byte plane `q` of a frame gives. -/
def ChunkCode.planeByte (d : ChunkCode) (f : List (List Bool)) (q : Nat) : Nat :=
  ((byteCodeOf (d.planes.getD q none) (f.getD q [])).getD 0).toNat

/-- The delta of channel `k` in a frame (46_audio.md R347). -/
def ChunkCode.delta (d : ChunkCode) (k : Nat) (f : List (List Bool)) : Nat :=
  if d.b16 then d.planeByte f (2 * k) + 256 * d.planeByte f (2 * k + 1) else d.planeByte f k

/-- The accumulator of channel `k` after `n` delta frames: its base and the deltas, mod 2^8 or 2^16
(46_audio.md R347, R349). -/
def ChunkCode.level (d : ChunkCode) (k n : Nat) : Nat :=
  ((if k = 0 then d.left else d.right).toNat + ((d.frames.take n).map (d.delta k)).sum) %
    (if d.b16 then 65536 else 256)

/-- The sample an accumulator is emitted as: 8-bit with its top bit inverted, 16-bit as it is
(46_audio.md R346, R349). -/
def ChunkCode.sample (d : ChunkCode) (v : Nat) : Sample :=
  if d.b16 then .s16 (BitVec.ofNat 16 v) else .s8 (BitVec.ofNat 8 ((v + 128) % 256))

/-- The samples of output frame `n`: left, then right (46_audio.md R346). -/
def ChunkCode.outFrame (d : ChunkCode) (n : Nat) : List Sample :=
  if d.st then [d.sample (d.level 0 n), d.sample (d.level 1 n)] else [d.sample (d.level 0 n)]

/-- OUT: the bases, then one frame per delta frame (46_audio.md R340, R352). -/
def ChunkCode.out (d : ChunkCode) : List Sample := (List.range (d.frames.length + 1)).flatMap d.outFrame

/-- A record of a palette chunk (30_encoding.md R106). -/
inductive PalRecord where
  | skip (n : BitVec 7)
  | copy (n : BitVec 6) (src : Byte)
  | lit (r6 : BitVec 6) (g b : Byte)
deriving DecidableEq, Repr

/-- The bytes of a record (30_encoding.md R106, R107). -/
def PalRecord.bytes : PalRecord → List Byte
  | .skip n => [BitVec.ofNat 8 (128 + n.toNat)]
  | .copy n src => [BitVec.ofNat 8 (64 + n.toNat), src]
  | .lit r6 g b => [BitVec.ofNat 8 r6.toNat, g, b]

/-- The number of entries a record produces (45_palette.md R313 to R315). -/
def PalRecord.span : PalRecord → Nat
  | .skip n => n.toNat + 1
  | .copy n _ => n.toNat + 1
  | .lit _ _ _ => 1

/-- A copy reads inside OLD (45_palette.md R314). -/
def PalRecord.legal : PalRecord → Prop
  | .skip _ => True
  | .copy n src => src.toNat + (n.toNat + 1) ≤ 256
  | .lit _ _ _ => True

/-- A 6-bit component upscaled (10_state.md R35). -/
def upscaled (v : Nat) : Byte := BitVec.ofNat 8 (v * 4 + v / 16)

/-- The value a record gives the entry `i` it covers, the record's first entry being `e`
(45_palette.md R312 to R315). -/
def PalRecord.value (old : Nat → Rgb) (e i : Nat) : PalRecord → Rgb
  | .skip _ => old i
  | .copy _ src => old (src.toNat + (i - e))
  | .lit r6 g b => { r := upscaled r6.toNat, g := upscaled (g.toNat % 64), b := upscaled (b.toNat % 64) }

/-- The entry `i` after the records, the first of them starting at entry `e` (45_palette.md R318). -/
def paletteAfter (old : Nat → Rgb) : Nat → Nat → List PalRecord → Rgb
  | _, i, [] => old i
  | e, i, r :: rs => if i < e + r.span then r.value old e i else paletteAfter old (e + r.span) i rs

/-- Pixel address `a` is column `col` of logical row `r` of block `blk`, in one of the D surface rows of it
(43_frame_decoder.md R242, R245). -/
def onPixel (g : Cfg) (blk r col a : Nat) : Prop :=
  r < 4 ∧ col < 4 ∧
  ∃ j, j < g.d ∧ a = (blk / g.bw * 4 * g.d + r * g.d + j) * g.w.toNat + (4 * (blk % g.bw) + col)

/-- Pixel address `a` belongs to block `blk`. -/
def onBlock (g : Cfg) (blk a : Nat) : Prop := ∃ r col, onPixel g blk r col a

/-- Pixel address `a` lies in the block grid: a column below 4·BW and a row below 4·BH·D (00_scope.md R5). -/
def onGrid (g : Cfg) (a : Nat) : Prop :=
  ∃ x y, x < 4 * g.bw ∧ y < 4 * g.bh * g.d ∧ a = y * g.w.toNat + x

end Sys2Proof.Machine
end

