-- ==== Sys2Proof/Safety.lean ====
section
/-! DEFINITION. The terms in which claims speak of a run: which instructions are host commands and where
they are admitted (30_encoding.md R91, R94), what a sound word tree is (42_word_tree.md R205), and the
invariant that every step keeps. -/

namespace Sys2Proof.Machine

/-- The instructions the host issues at the port (30_encoding.md R91, R95). -/
def isCommand : Instr → Bool
  | .configure _ => true
  | .buildTrees _ => true
  | .decodeFrame _ => true
  | .unpackPalette _ => true
  | .decodeAudio _ _ _ => true
  | .getDirtyRect => true
  | .ackPalette => true
  | .reservedCmd _ => true
  | .blkMono _ _ => false
  | .blkFull _ _ => false
  | .blkSkip _ _ => false
  | .blkFill _ _ => false
  | .fullV2 => false
  | .fullV4M1 => false
  | .fullV4M2 => false
  | .fullV4M0 => false
  | .palSkip _ => false
  | .palCopy _ => false
  | .palLit _ => false
  | .btEmpty _ => false
  | .btPresent _ => false
  | .bnodeLeaf _ => false
  | .bnodeInternal _ => false
  | .wtEmpty _ => false
  | .wtPresent _ => false
  | .wnodeLeaf _ => false
  | .wnodeInternal _ => false
  | .audAbsent => false
  | .audPresent => false
  | .readBit => false
  | .readBits _ => false
  | .peek8 => false
  | .skip _ => false
  | .byteBuild _ => false
  | .byteGetcode _ => false
  | .wordBuild _ => false
  | .wordGetcode _ => false
  | .wordReset _ => false

/-- The columns of the admission table (30_encoding.md R94). -/
structure Admission where
  unconfigured : Bool
  configured : Bool
  ready : Bool
  failed : Bool
deriving DecidableEq, Repr

/-- The entry of a row for a phase. -/
def Admission.holds (a : Admission) : Phase → Bool
  | .unconfigured => a.unconfigured
  | .configured => a.configured
  | .ready => a.ready
  | .failed => a.failed

/-- The row "run, refused, refused, refused". -/
def onlyUnconfigured : Admission := { unconfigured := true, configured := false, ready := false, failed := false }
/-- The row "refused, run, refused, refused". -/
def onlyConfigured : Admission := { unconfigured := false, configured := true, ready := false, failed := false }
/-- The row "refused, refused, run, refused". -/
def onlyReady : Admission := { unconfigured := false, configured := false, ready := true, failed := false }
/-- The row "refused, run, run, refused". -/
def onceConfigured : Admission := { unconfigured := false, configured := true, ready := true, failed := false }

/-- The admission table of 30_encoding.md R94: its seven commands; none for what it does not list. -/
def admission : Instr → Option Admission
  | .configure _ => some onlyUnconfigured
  | .buildTrees _ => some onlyConfigured
  | .decodeFrame _ => some onlyReady
  | .unpackPalette _ => some onceConfigured
  | .decodeAudio _ _ _ => some onceConfigured
  | .getDirtyRect => some onceConfigured
  | .ackPalette => some onceConfigured
  | _ => none

/-- OVR says so whenever the cursor stands past the end (40_bitcursor.md R142, R145). -/
def Cursor.fair (c : Cursor) : Prop := 8 * c.len < c.pos → c.ovr = true

/-- `n` successive READ_BITs: their results, and the machine after them. -/
def readBitRun : Nat → State → Option (List Half × State)
  | 0, s => some ([], s)
  | n + 1, s =>
    match exec .readBit s with
    | .next t => (readBitRun n t).map fun r => (t.work.res :: r.1, r.2)
    | .fault _ => none
    | .refused _ => none

/-- The GET_DIRTY_RECT calls up to and including the first NONE (44_dirty_rect.md R297): the rectangles, in
blocks, and the machine after the last call. -/
inductive Drains : State → List BlockRect → State → Prop where
  | done {s t : State} : exec .getDirtyRect s = .next t → t.rect = none → Drains s [] t
  | more {s t u : State} {r : BlockRect} {rs : List BlockRect} :
      exec .getDirtyRect s = .next t → t.rect = some (r.toRect s.cfg) → Drains t rs u → Drains s (r :: rs) u

/-- A word tree as every rule may rely on it (42_word_tree.md R205, R210, 41_byte_tree.md R175): empty with
no node, or a code tree in pre-order with its prefix table, up to three further leaves, and three slots
that are leaves inside the array. -/
def soundTree (cap : Nat) (w : WordTree) : Prop :=
  (w.empty = true ∧ w.nodes = []) ∨
  (w.empty = false ∧ w.nodes.length ≤ cap ∧
    ∃ (t : CodeTree Half) (extra : List Half),
      extra.length ≤ 3 ∧ w.nodes = t.cells ++ extra.map Node.leaf ∧ w.pfx = t.table ∧
      ∀ j : Fin 3, ∃ v, w.nodes[w.slot.get j]? = some (.leaf v))

/-- The invariant of the machine between commands. In FAILED the contents are unspecified
(60_exceptions.md R402), so nothing is said of them there. -/
structure State.Inv (s : State) : Prop where
  /-- No syntax element is fetched: the host issues commands only (log 10). -/
  atPort : s.expect = .command
  /-- No working state outlives its command (10_state.md R26, R27, R33). -/
  noWork : s.work = Work.idle
  /-- The class of STATUS is that of its cause (60_exceptions.md R401). -/
  classed : s.status.code = s.status.cause.code
  /-- The stores keep their canonical form (log 16). -/
  surfForm : s.surf.wf
  palForm : s.pal.wf
  /-- Outside FAILED an index nothing has written reads its initial value (70_reset_and_hazards.md R444). -/
  bases : s.phase ≠ .failed → s.surf.base = .init ∧ s.pal.base = .init
  /-- The trees are built in READY and only there (10_state.md R20, R25). -/
  built : s.phase ≠ .failed → ∀ k, (s.wt.get k).built = (s.phase == .ready)
  sound : s.phase = .ready → ∀ k, soundTree (s.cfg.cap k) (s.wt.get k)
  /-- Nothing outside the block grid is ever written (00_scope.md R5, 20_memory.md R64). -/
  surfGrid : s.phase ≠ .failed → ∀ p ∈ s.surf.cells, onGrid s.cfg p.1
  /-- PAL has 256 entries (10_state.md R31). -/
  palRange : s.phase ≠ .failed → ∀ p ∈ s.pal.cells, p.1 < 256
  /-- DIRTY is held in rising order (log 22), inside the grid, and nothing dirty lies before SCAN
  (10_state.md R29, R30, 44_dirty_rect.md R291). -/
  dirtyOrder : s.phase ≠ .failed → s.dirty.Pairwise (· < ·)
  dirtyRange : s.phase ≠ .failed → ∀ b ∈ s.dirty, s.scan ≤ b ∧ b < s.cfg.nb
  scanRange : s.phase ≠ .failed → s.scan ≤ s.cfg.nb
  /-- Before READY no block is dirty (44_dirty_rect.md R290). -/
  clean : s.phase = .unconfigured ∨ s.phase = .configured → s.dirty = []
  /-- CONSUMED is 4·B[0] of some chunk (45_palette.md R318). -/
  consumed : s.consumed.toNat % 4 = 0 ∧ s.consumed.toNat ≤ 1020

end Sys2Proof.Machine
end

