-- ==== Sys2Proof/Certificates/Slice0/Obligations.lean ====
section
/-! DEFINITION. The statements for the provers. Each docstring names the rules of spec/ it rests on. A
statement about a running command's working state is about syntax elements and micro-operations executed
on their own (logs 10 and 11). -/

open Sys2Proof Sys2Proof.Machine

/-! ### Encoding -/

/-- R90, R91, R95, R98, R99, R102, R104, R107, R108: decoding the encoding of a well-formed instruction gives
it back, every operand at every value. -/
def Obligations.DecodeEncodeAgree : Prop :=
  ∀ (i : Instr) (e : Encoded), i.wf = true → encode i = some e → decode e = .ok i

/-- R102, R103: the fields of a type code; every one of the 65536 codes decodes to an instruction whose encoding
it is, and COLOR matters to FILL only. -/
def Obligations.TypeCodeFields : Prop :=
  (∀ t : Half, ∃ (r : BitVec 6) (c : Byte), r.toNat = t.toNat / 4 % 64 ∧ c.toNat = t.toNat / 256 ∧
    (t.toNat % 4 = 0 → decode (.typeCode t) = .ok (.blkMono r c)) ∧
    (t.toNat % 4 = 1 → decode (.typeCode t) = .ok (.blkFull r c)) ∧
    (t.toNat % 4 = 2 → decode (.typeCode t) = .ok (.blkSkip r c)) ∧
    (t.toNat % 4 = 3 → decode (.typeCode t) = .ok (.blkFill r c))) ∧
  (∀ t : Half, ∃ i, decode (.typeCode t) = .ok i ∧ encode i = some (.typeCode t)) ∧
  ∀ (t u : Half) (i j : Instr) (s : State), t.toNat % 256 = u.toNat % 256 → t.toNat % 4 ≠ 3 →
    decode (.typeCode t) = .ok i → decode (.typeCode u) = .ok j → exec i s = exec j s

/-- R107: the fields of a palette control byte, all 256 of them; bits 7:6 of the G and B bytes are ignored. -/
def Obligations.PaletteControlByteFields : Prop :=
  (∀ ctl : Byte,
    (128 ≤ ctl.toNat → ∃ n : BitVec 7, n.toNat = ctl.toNat % 128 ∧ decode (.palByte ctl) = .ok (.palSkip n)) ∧
    (64 ≤ ctl.toNat ∧ ctl.toNat < 128 →
      ∃ n : BitVec 6, n.toNat = ctl.toNat % 64 ∧ decode (.palByte ctl) = .ok (.palCopy n)) ∧
    (ctl.toNat < 64 → ∃ r : BitVec 6, r.toNat = ctl.toNat ∧ decode (.palByte ctl) = .ok (.palLit r))) ∧
  ∀ (r : BitVec 6) (g b g' b' : Byte), g.toNat % 64 = g'.toNat % 64 → b.toNat % 64 = b'.toNat % 64 →
    literalColour r g b = literalColour r g' b'

/-- R91, R95, R102, R104, R107, R98, R99, R108: a few words written out from the tables. The clauses through
decodeTableWord rest on log 12, the model's choice (DESIGN CHOICE): it tells the formats apart by their width, so an
8-bit word is read as PALCTL8 and a 32-bit word has an operand record of zeros. The clauses through decode do not. -/
def Obligations.DecodedWordsAreRight : Prop :=
  decodeTableWord 32 0x00000006 = some .getDirtyRect ∧
  decodeTableWord 32 0x00000007 = some .ackPalette ∧
  decodeTableWord 32 0x00000008 = some (.reservedCmd 8) ∧
  decodeTableWord 16 0x5503 = some (.blkFill 0 0x55) ∧
  decodeTableWord 16 0x00FE = some (.blkSkip 63 0) ∧
  decodeTableWord 8 0xFF = some (.palSkip 127) ∧
  decodeTableWord 8 0x41 = some (.palCopy 1) ∧
  decodeTableWord 8 0x3F = some (.palLit 63) ∧
  decode (.bits (.fullSel .v4) [false, true]) = .ok .fullV4M2 ∧
  decode (.bits (.wtHeader .typ) [true, false]) = .ok (.wtPresent .typ) ∧
  decode (.bits (.btNode .lo) [true, true]) = .ok (.bnodeInternal .lo) ∧
  decode (.bits .audHeader [false, true]) = .ok .audAbsent

/-! ### The step, the port, the phases, errors and reset -/

/-- R90, R92: a step with an instruction fetched is that instruction. That step fetches a syntax element as well,
where `expect` asks for one, and that `expect` turns to the port when the instruction is taken, is the model's
sequencer (log 10, DESIGN CHOICE). The second clause: the command word at the port is what is fetched. The third: an
idle port leaves the machine as it is (log 15, DEDUCED). The fourth: a command whose buffer is longer than its u32
LEN can say is the fault operandTooLong (log 13, DEDUCED). -/
def Obligations.StepRunsTheDecodedInstruction : Prop :=
  (∀ (s : State) (e : Encoded) (i : Instr), s.resetPin = false → s.fetch = .found e → decode e = .ok i →
    i.wf = true → step s = exec i { s with expect := .command }) ∧
  (∀ (s : State) (c : Command), s.expect = .command → s.port = some c → s.fetch = .found (.command c)) ∧
  (∀ s : State, s.resetPin = false → s.expect = .command → s.port = none → step s = .next s) ∧
  ∀ (s : State) (c : Command), s.resetPin = false → s.expect = .command → s.port = some c →
    2 ≤ c.cmd.toNat → c.cmd.toNat ≤ 5 → 2 ^ 32 ≤ c.ops.buf.length → step s = .fault .operandTooLong

/-- R95: every reserved command word is refused, in every phase, and changes nothing but STATUS (the port
returns to idle, R92). -/
def Obligations.ReservedCommandsAreIllegal : Prop :=
  (∀ (cmd : Word) (s : State), exec (.reservedCmd cmd) s =
    .next { s with status := { code := .refused, cause := .illegalCommand }, port := none }) ∧
  ∀ (c : Command) (s : State), s.resetPin = false → s.expect = .command → s.port = some c →
    c.cmd.toNat % 256 = 0 ∨ 8 ≤ c.cmd.toNat % 256 ∨ 256 ≤ c.cmd.toNat →
    step s = .next { s with status := { code := .refused, cause := .illegalCommand }, port := none }

/-- R94: a command in a phase that does not admit it is refused and changes nothing but STATUS; in a phase
that admits it, it is not refused for its phase. -/
def Obligations.PhaseAdmission : Prop :=
  ∀ (i : Instr) (a : Admission) (s : State), admission i = some a →
    (a.holds s.phase = false →
      exec i s = .next { s with status := { code := .refused, cause := .wrongPhase }, port := none }) ∧
    (a.holds s.phase = true → ∀ t, exec i s = .next t → t.status.cause ≠ .wrongPhase)

/-- R400 to R405: how a host command ends. The class is that of the cause, the port is idle; the classes that
are not fatal change nothing but STATUS; the fatal ones lead to FAILED and deliver no result field. -/
def Obligations.HowCommandsEnd : Prop :=
  ∀ (i : Instr) (s t : State), isCommand i = true → exec i s = .next t →
    t.status.code = t.status.cause.code ∧ t.port = none ∧
    (t.status.code = .refused ∨ t.status.code = .formatError ∨ t.status.code = .unsupportedFeature →
      t = { s with status := t.status, port := none }) ∧
    (t.status.code = .dataTruncated ∨ t.status.code = .consistencyError →
      t.phase = .failed ∧ t.cfg = s.cfg ∧ t.consumed = s.consumed ∧ t.rect = s.rect ∧ t.out = s.out)

/-- R402, R94, R95: without the reset input FAILED is never left, and every command in it only writes STATUS. -/
def Obligations.FailedIsLeftOnlyByReset : Prop :=
  ∀ s t : State, s.phase = .failed → s.expect = .command → s.resetPin = false → step s = .next t →
    t = s ∨
    t = { s with status := { code := .refused, cause := .wrongPhase }, port := none } ∨
    t = { s with status := { code := .refused, cause := .illegalCommand }, port := none }

/-- R40, R440, R402: what the machine holds right after reset where the spec gives a value, and the reset input,
which leads there from every state: PHASE, STATUS, BUILT and the port as the rules say, the running command
gone. (How the input is modelled: log 14.) -/
def Obligations.ResetInputResets : Prop :=
  State.reset.phase = .unconfigured ∧ State.reset.status = { code := .ok, cause := .none } ∧
  (∀ k, (State.reset.wt.get k).built = false) ∧ State.reset.port = none ∧
  State.reset.storeReadable = false ∧ (∀ c, (State.reset.issue c).isSome = true) ∧
  ∀ s : State, s.resetPin = true → ∃ t, step s = .next t ∧ t = { State.reset with fails := t.fails }

/-- R386, R40: what the host reads between commands; nothing while a command stands at the port; and in
UNCONFIGURED no pixel, no entry and no PAL_DIRTY, since they do not exist. -/
def Obligations.HostReadsBetweenCommands : Prop :=
  ∀ s : State,
    (s.port = none → s.readStatus = some (s.status.code.number, s.status.cause.number) ∧
      s.readPhase = some s.phase.number ∧ s.readConsumed = some s.consumed ∧ s.readRect = some s.rect ∧
      s.readOut = some s.out) ∧
    (∀ c, s.port = some c → s.readStatus = none ∧ s.readPhase = none ∧ s.readPalDirty = none ∧
      s.readConsumed = none ∧ s.readRect = none ∧ s.readOut = none ∧
      ∀ x y, s.readPixel x y = none ∧ s.readEntry x = none) ∧
    (s.port = none → s.phase = .configured ∨ s.phase = .ready → s.readPalDirty = some s.palDirty ∧
      (∀ e, e < 256 → s.readEntry e = some (entryAt s.pal e)) ∧
      ∀ x y, x < s.cfg.w.toNat → y < s.cfg.h.toNat * s.cfg.d →
        s.readPixel x y = some (pixelAt s.surf (y * s.cfg.w.toNat + x))) ∧
    (s.phase = .unconfigured → s.readPalDirty = none ∧ ∀ x y, s.readPixel x y = none ∧ s.readEntry x = none)

/-! ### The invariant -/

/-- R94, R205, R5, R29 to R31, R290, R291, R318, R401: every step keeps the invariant. -/
def Obligations.StepKeepsInvariant : Prop :=
  ∀ s t : State, s.Inv → step s = .next t → t.Inv

/-- The invariant holds right after reset. -/
def Obligations.ResetHasInvariant : Prop := State.reset.Inv

/-- R142, R145: OVR says so whenever the running command's cursor stands past the end; no instruction breaks
this, and it holds of the idle cursor. -/
def Obligations.OverrunFlagStaysTrue : Prop :=
  Work.idle.cur.fair ∧
  ∀ (i : Instr) (s t : State), s.work.cur.fair → exec i s = .next t → t.work.cur.fair

/-! ### The bit cursor -/

/-- R142, R145, with R141's bit written out: READ_BIT and SKIP. Nothing else changes. (A micro-operation executed
on its own, and where its result goes: log 11.) -/
def Obligations.ReadBitAndSkipEffect : Prop :=
  (∀ s : State, exec .readBit s =
    .next { s with
      work := { s.work with
        cur :=
          { buf := s.work.cur.buf
            pos := s.work.cur.pos + 1
            ovr := if 8 * s.work.cur.buf.length < s.work.cur.pos + 1 then true else s.work.cur.ovr }
        res :=
          if s.work.cur.pos < 8 * s.work.cur.buf.length then
            BitVec.ofNat 16
              ((s.work.cur.buf.getD (s.work.cur.pos / 8) 0).toNat / 2 ^ (s.work.cur.pos % 8) % 2)
          else 0 } }) ∧
  ∀ (n : Nat) (s : State), exec (.skip n) s =
    .next { s with
      work := { s.work with
        cur :=
          { buf := s.work.cur.buf
            pos := s.work.cur.pos + n
            ovr := if 8 * s.work.cur.buf.length < s.work.cur.pos + n then true else s.work.cur.ovr } } }

/-- R143, R144: READ_BITS for every width 0 to 16 gives the field's bits, zero-extended, and moves the cursor;
PEEK8 gives the next 8 bits and moves nothing. (The result register: log 11.) -/
def Obligations.ReadBitsAndPeekEffect : Prop :=
  (∀ (n : Nat) (s : State), n ≤ 16 → ∃ v : Half,
    exec (.readBits n) s =
      .next { s with
        work := { s.work with
          cur :=
            { buf := s.work.cur.buf
              pos := s.work.cur.pos + n
              ovr := if 8 * s.work.cur.buf.length < s.work.cur.pos + n then true else s.work.cur.ovr }
          res := v } } ∧
    ∀ k, v.getLsbD k = (decide (k < n) && s.work.cur.bit (s.work.cur.pos + k))) ∧
  ∀ s : State, ∃ v : Half, exec .peek8 s = .next { s with work := { s.work with res := v } } ∧
    ∀ k, v.getLsbD k = (decide (k < 8) && s.work.cur.bit (s.work.cur.pos + k))

/-- R147: READ_BITS returns the sum of the bits that as many READ_BITs return, and leaves the cursor they
leave. -/
def Obligations.ReadBitsIsARunOfReadBits : Prop :=
  ∀ (n : Nat) (s : State), n ≤ 16 → s.work.cur.fair → ∃ bs u t, readBitRun n s = some (bs, u) ∧
    exec (.readBits n) s = .next t ∧ t.work.cur = u.work.cur ∧ bs.length = n ∧
    t.work.res.toNat = bs.foldr (fun b acc => b.toNat + 2 * acc) 0

/-- R148: the low bits of a peek are what the next READ_BITs return, and skipping them leaves the cursor those
leave. -/
def Obligations.PeekShowsTheNextBits : Prop :=
  ∀ (k : Nat) (s : State), k ≤ 8 → s.work.cur.fair → ∃ bs u t v, readBitRun k s = some (bs, u) ∧
    exec .peek8 s = .next t ∧ exec (.skip k) t = .next v ∧ v.work.cur = u.work.cur ∧
    ∀ j, j < k → bs[j]? = some (if t.work.res.getLsbD j then 1 else 0)

/-! ### Byte trees -/

/-- R170, R180: the empty byte tree is one bit, and every code of it is 0 and takes no bits. -/
def Obligations.EmptyByteTree : Prop :=
  ∀ (d : BtId) (s : State),
    (let t : State :=
      { s with
        work := { s.work.setByteTree d { empty := true, nodes := [], pfx := zeroPfx } with
          cur := s.work.cur.skip 1 } }
     exec (.btEmpty d) s = .next t ∧
     (s.work.cur.bit s.work.cur.pos = false → exec (.byteBuild d) s = .next t)) ∧
    ((s.work.byteTree d).empty = true →
      exec (.byteGetcode d) s = .next { s with work := { s.work with res := 0 } })

/-- R170 to R173: from a stream that holds a byte tree, BYTE_BUILD and BT_PRESENT build its pre-order node
array and its prefix table and take exactly its bits. -/
def Obligations.ByteBuildReadsTheTree : Prop :=
  ∀ (d : BtId) (t : CodeTree Byte) (s : State), t.count ≤ 511 →
    s.work.cur.shows s.work.cur.pos (byteTreeBits (some t)) →
    (let u : State :=
      { s with
        work := { s.work.setByteTree d (byteTreeOf (some t)) with
          cur := s.work.cur.skip (byteTreeBits (some t)).length } }
     exec (.byteBuild d) s = .next u ∧ exec (.btPresent d) s = .next u)

/-- R171 to R173: BNODE_LEAF and BNODE_INTERNAL at any position of a construction: the subtree's cells are
appended, its leaves fill the entries of their codes, and its node count is returned. -/
def Obligations.ByteNodeReadsTheSubtree : Prop :=
  ∀ (d : BtId) (t : CodeTree Byte) (s : State),
    (s.work.byteTree d).nodes.length + t.count ≤ 511 →
    (s.work.codeLen ≤ 8 → s.work.codePfx < 2 ^ s.work.codeLen) →
    s.work.cur.shows s.work.cur.pos t.nodeBits →
    exec (match t with | .leaf _ => .bnodeLeaf d | .fork _ _ => .bnodeInternal d) s =
      .next { s with
        work := { s.work.setByteTree d
            { s.work.byteTree d with
              nodes := (s.work.byteTree d).nodes ++ t.cells
              pfx := (s.work.byteTree d).pfx.mapIdx fun k e =>
                if s.work.codeLen ≤ 8 ∧ k % 2 ^ s.work.codeLen = s.work.codePfx then
                  (t.entry k (s.work.byteTree d).nodes.length s.work.codeLen).getD e
                else e } with
          cur := s.work.cur.skip t.nodeBits.length, count := t.count } }

/-- R174, R204, R200, R240, R344, R406: a tree over its capacity, each time in FAILED, and whatever the buffer's
length, for a capacity error precedes the overrun check. A byte tree of more than 511 nodes ends BYTE_BUILD and
BT_PRESENT with BYTE_TREE_CAPACITY. A word tree ends WORD_BUILD and WT_PRESENT with BYTE_TREE_CAPACITY where its LO or
HI tree has more than 511 nodes, else with WORD_TREE_CAPACITY where it needs more cells than SZ_k div 4. (Those four
are executed on their own: log 11.) BUILD_TREES ends with the cause of its first tree that does not fit. DECODE_AUDIO,
with data, configuration and size in order, ends with BYTE_TREE_CAPACITY where a plane tree has more than 511 nodes. -/
def Obligations.TreeCapacities : Prop :=
  (∀ (d : BtId) (t : CodeTree Byte) (s : State), 511 < t.count →
    s.work.cur.shows s.work.cur.pos (byteTreeBits (some t)) →
    ∃ u, exec (.byteBuild d) s = .next u ∧ exec (.btPresent d) s = .next u ∧
      u.status = { code := .consistencyError, cause := .byteTreeCapacity } ∧ u.phase = .failed) ∧
  (∀ (k : TreeId) (pat : Pattern) (cause : Cause) (s : State), Overfull ((s.cfg.size k).toNat / 4) pat cause →
    s.work.cur.shows s.work.cur.pos pat →
    ∃ u, exec (.wordBuild k) s = .next u ∧ exec (.wtPresent k) s = .next u ∧
      u.status = { code := .consistencyError, cause := cause } ∧ u.phase = .failed) ∧
  (∀ (k : TreeId) (trees : TreeId → Option WordCode) (pat : Pattern) (cause : Cause) (blob : List Byte) (s : State),
    s.phase = .configured → (∀ j ∈ treesBefore k, wordTreeFits ((s.cfg.size j).toNat / 4) (trees j)) →
    Overfull ((s.cfg.size k).toNat / 4) pat cause →
    (Cursor.over blob).shows 0 ((treesBefore k).flatMap (fun j => wordTreeBits (trees j)) ++ pat) →
    ∃ u, exec (.buildTrees blob) s = .next u ∧
      u.status = { code := .consistencyError, cause := cause } ∧ u.phase = .failed) ∧
  ∀ (st b16 : Bool) (planes : List ByteCode) (t : CodeTree Byte) (track : BitVec 3) (chunk : List Byte)
    (unpacked info : Word) (s : State),
    s.phase = .configured ∨ s.phase = .ready → s.cfg.audio[track.toNat]? = some info →
    info.getLsbD 30 = true → info.getLsbD 31 = true → info.getLsbD 28 = st → info.getLsbD 29 = b16 →
    (let np := (if st then 2 else 1) * (if b16 then 2 else 1)
     np ≤ unpacked.toNat → unpacked.toNat % np = 0 →
     planes.length < np → (∀ p ∈ planes, byteTreeFits p) → 511 < t.count →
     (Cursor.over chunk).shows 0
       (some true :: some st :: some b16 :: (planes.flatMap byteTreeBits ++ byteTreeBits (some t))) →
     ∃ u, exec (.decodeAudio track chunk unpacked) s = .next u ∧
       u.status = { code := .consistencyError, cause := .byteTreeCapacity } ∧ u.phase = .failed)

/-- R176, R177: BYTE_GETCODE on a built tree: the code in the stream gives its leaf's value and is consumed,
whatever its length; nothing else changes. -/
def Obligations.ByteGetcodeFollowsTheCode : Prop :=
  ∀ (d : BtId) (code : ByteCode) (bs : List Bool) (v : Byte) (s : State),
    s.work.byteTree d = byteTreeOf code → byteCodeOf code bs = some v →
    s.work.cur.shows s.work.cur.pos (fixed bs) → s.work.cur.fair →
    exec (.byteGetcode d) s =
      .next { s with work := { s.work with cur := s.work.cur.skip bs.length, res := v.setWidth 16 } }

/-- R178: on a tree that was built, the prefix table gives what the walk from the root gives. -/
def Obligations.PrefixTableOnlyOptimises : Prop :=
  ∀ (c c' d : Cursor) (t : ByteTree), buildByteTree c = .ok (t, c') → t.empty = false → d.fair →
    byteGetCode t d = (leafValue (nodeAt t.nodes (walk t.nodes d 0).1), (walk t.nodes d 0).2)

/-- R175: a built byte tree that is not empty is a full binary tree in pre-order, its root at index 0, with
2·L − 1 nodes; its prefix table holds the leaf that the bits of k reach within depth 8 and (0, 0) elsewhere, so
every entry has a length of at least 1 or is (0, 0). -/
def Obligations.ByteTreeStructure : Prop :=
  ∀ (c c' : Cursor) (t : ByteTree), buildByteTree c = .ok (t, c') → t.empty = false →
    ∃ shape : CodeTree Byte, t.nodes = shape.cells ∧ t.nodes.length = 2 * shape.labels.length - 1 ∧
      t.pfx = shape.table ∧ t.nodes.length ≤ 511 ∧
      t.pfx.length = 256 ∧ ∀ e ∈ t.pfx, 1 ≤ e.len ∨ e.len = 0 ∧ e.node = 0

/-! ### Word trees -/

/-- R200, R210: the empty word tree is one bit; its codes are 0 and take no bits, and WORD_RESET does nothing. -/
def Obligations.EmptyWordTree : Prop :=
  ∀ (k : TreeId) (s : State),
    (let t : State :=
      { s with
        wt := s.wt.set k { s.wt.get k with empty := true, nodes := [], pfx := zeroPfx }
        work := { s.work with cur := s.work.cur.skip 1 } }
     exec (.wtEmpty k) s = .next t ∧
     (s.work.cur.bit s.work.cur.pos = false → exec (.wordBuild k) s = .next t)) ∧
    ((s.wt.get k).empty = true →
      exec (.wordGetcode k) s = .next { s with work := { s.work with res := 0 } } ∧
      exec (.wordReset k) s = .next s)

/-- R200 to R204: from a stream that holds a word tree that fits its capacity, WORD_BUILD and WT_PRESENT build
it, with its markers, its slots and the cells of the unmatched markers, and take exactly its bits. -/
def Obligations.WordBuildReadsTheTree : Prop :=
  ∀ (k : TreeId) (d : WordCode) (s : State), wordTreeFits (s.cfg.cap k) (some d) →
    s.work.cur.shows s.work.cur.pos (wordTreeBits (some d)) →
    (let u : State :=
      { s with
        wt := s.wt.set k (d.built (s.wt.get k).built)
        work := { s.work with cur := s.work.cur.skip (wordTreeBits (some d)).length } }
     exec (.wordBuild k) s = .next u ∧ exec (.wtPresent k) s = .next u)

/-- R201, R202: WNODE_LEAF and WNODE_INTERNAL at any position of a construction whose LO and HI are built. -/
def Obligations.WordNodeReadsTheSubtree : Prop :=
  ∀ (k : TreeId) (d : WordCode) (s : State),
    d.legal → s.work.lo = byteTreeOf d.lo → s.work.hi = byteTreeOf d.hi → (s.wt.get k).mark = d.mark →
    (s.wt.get k).nodes.length + d.tree.count ≤ s.cfg.cap k →
    (s.work.codeLen ≤ 8 → s.work.codePfx < 2 ^ s.work.codeLen) →
    s.work.cur.shows s.work.cur.pos (wordNodeBits d.tree) →
    ∃ t, exec (match d.tree with | .leaf _ => .wnodeLeaf k | .fork _ _ => .wnodeInternal k) s = .next t ∧
      (t.wt.get k).nodes = (s.wt.get k).nodes ++ (d.values.map (unmarked d.mark)).cells ∧
      ((t.wt.get k).pfx = (s.wt.get k).pfx.mapIdx fun q e =>
        if s.work.codeLen ≤ 8 ∧ q % 2 ^ s.work.codeLen = s.work.codePfx then
          (d.values.entry q (s.wt.get k).nodes.length s.work.codeLen).getD e
        else e) ∧
      (∀ j, (t.wt.get k).slot.get j =
          match lastPlace (d.mark.get j) d.values with
          | some p => (s.wt.get k).nodes.length + p
          | none => (s.wt.get k).slot.get j) ∧
      (∀ j, t.work.marked.get j = (s.work.marked.get j || (lastPlace (d.mark.get j) d.values).isSome)) ∧
      (t.wt.get k).mark = d.mark ∧ (t.wt.get k).empty = (s.wt.get k).empty ∧
      (t.wt.get k).built = (s.wt.get k).built ∧
      t = { s with
        wt := s.wt.set k (t.wt.get k)
        work := { s.work with
          marked := t.work.marked, cur := s.work.cur.skip (wordNodeBits d.tree).length, count := d.tree.count } }

/-- R205, R202, R203: a built word tree that is not empty. Every slot is a leaf inside the array and holds 0. With
`values` the tree of the L coded leaves as they were composed, the cells are 2·L − 1, a leaf whose value is a marker
holding 0, and one for each of the u markers that no coded leaf matched, 0 ≤ u ≤ 3; those markers, and no others,
have their slots past the coded cells, each in a cell of its own. -/
def Obligations.WordTreeStructure : Prop :=
  ∀ (cap : Nat) (w w' : WordTree) (c c' : Cursor), buildWordTree cap w c = .ok (w', c') → w'.empty = false →
    (∀ j, w'.slot.get j < w'.nodes.length ∧ w'.nodes[w'.slot.get j]? = some (.leaf 0)) ∧
    ∃ values : CodeTree Half,
      (let coded := 2 * values.labels.length - 1
       let u := ((List.finRange 3).filter fun j => decide (w'.mark.get j ∉ values.labels)).length
       u ≤ 3 ∧ w'.nodes = (values.map (unmarked w'.mark)).cells ++ List.replicate u (.leaf 0) ∧
       w'.nodes.length = coded + u ∧ w'.pfx = values.table ∧ w'.nodes.length ≤ cap ∧
       (∀ j, w'.mark.get j ∉ values.labels ↔ coded ≤ w'.slot.get j) ∧
       ∀ i j, i ≠ j → coded ≤ w'.slot.get i → w'.slot.get i ≠ w'.slot.get j)

/-- R206, R207: WORD_GETCODE on a tree in order: the code in the stream gives the current value of its cell and
is consumed; the slots move when the value is not slot 0's, in three writes each of which sees the earlier
ones; nothing else changes. -/
def Obligations.WordGetcodeEffect : Prop :=
  ∀ (k : TreeId) (shape : CodeTree Half) (extra : List Half) (a : Tri Half) (bs : List Bool) (v : Half)
    (s : State),
    (s.wt.get k).empty = false →
    (s.wt.get k).nodes = shape.cells ++ extra.map Node.leaf →
    (s.wt.get k).pfx = shape.table →
    (∀ j, (s.wt.get k).nodes[(s.wt.get k).slot.get j]? = some (.leaf (a.get j))) →
    shape.find bs = some v → s.work.cur.shows s.work.cur.pos (fixed bs) → s.work.cur.fair →
    (let w := s.wt.get k
     let shift1 := w.nodes.set w.slot.j2 (.leaf a.j1)
     let shift2 := shift1.set w.slot.j1 (.leaf (if w.slot.j0 = w.slot.j2 then a.j1 else a.j0))
     exec (.wordGetcode k) s =
       .next { s with
         wt := s.wt.set k
           { w with nodes := if v = a.j0 then w.nodes else shift2.set w.slot.j0 (.leaf v) }
         work := { s.work with cur := s.work.cur.skip bs.length, res := v } })

/-- R208: a code whose value is slot 0's leaves the slots as they are; any other makes them, without aliasing,
the value, the old slot 0 and the old slot 1. -/
def Obligations.MruStability : Prop :=
  ∀ (k : TreeId) (a : Tri Half) (s t : State),
    (s.wt.get k).empty = false →
    (∀ j, (s.wt.get k).nodes[(s.wt.get k).slot.get j]? = some (.leaf (a.get j))) →
    exec (.wordGetcode k) s = .next t →
    (t.wt.get k).slot = (s.wt.get k).slot ∧
    (t.work.res = a.j0 → (t.wt.get k).nodes = (s.wt.get k).nodes) ∧
    (t.work.res ≠ a.j0 →
      (s.wt.get k).slot.j0 ≠ (s.wt.get k).slot.j1 → (s.wt.get k).slot.j0 ≠ (s.wt.get k).slot.j2 →
      (s.wt.get k).slot.j1 ≠ (s.wt.get k).slot.j2 →
      (t.wt.get k).nodes[(s.wt.get k).slot.j0]? = some (.leaf t.work.res) ∧
      (t.wt.get k).nodes[(s.wt.get k).slot.j1]? = some (.leaf a.j0) ∧
      (t.wt.get k).nodes[(s.wt.get k).slot.j2]? = some (.leaf a.j1))

/-- R209: WORD_RESET writes 0 to the three slot cells and nothing else. -/
def Obligations.WordResetEffect : Prop :=
  ∀ (k : TreeId) (s : State), (s.wt.get k).empty = false →
    (∀ j, (s.wt.get k).slot.get j < (s.wt.get k).nodes.length) →
    ∃ t, exec (.wordReset k) s = .next t ∧
      t = { s with wt := s.wt.set k { s.wt.get k with nodes := (t.wt.get k).nodes } } ∧
      (t.wt.get k).nodes.length = (s.wt.get k).nodes.length ∧
      ∀ p, (t.wt.get k).nodes[p]? =
        if p = (s.wt.get k).slot.j0 ∨ p = (s.wt.get k).slot.j1 ∨ p = (s.wt.get k).slot.j2 then some (.leaf 0)
        else (s.wt.get k).nodes[p]?

/-! ### Frames -/

/-- R34, R35: the two ROM tables, at every index. The last clause: the number of every cause of R401 and of its
class, by the code numbers of R93. -/
def Obligations.ConstantTables : Prop :=
  (∀ i : BitVec 6, i.toNat ≤ 58 → runLen i = i.toNat + 1) ∧
  runLen 59 = 128 ∧ runLen 60 = 256 ∧ runLen 61 = 512 ∧ runLen 62 = 1024 ∧ runLen 63 = 2048 ∧
  (∀ v : BitVec 6, (up6 v).toNat = v.toNat * 4 + v.toNat / 16) ∧ up6 0 = 0 ∧ up6 63 = 255 ∧
  [Cause.none, .illegalCommand, .wrongPhase, .badTrack, .audioNotCompressed, .badSignature, .bootstrapOverrun,
    .palLen, .palTrunc, .audioOverrun, .frameOverrun, .byteTreeCapacity, .wordTreeCapacity, .palOvershoot,
    .palCopyRange, .audioConfig, .audioSize, .unsupportedRdft, .unsupportedDct].map
      (fun c => (c.number, c.code.number.toNat)) =
  [(0, 0), (1, 15), (2, 15), (3, 15), (4, 15), (5, 1), (6, 2), (7, 2), (8, 2), (9, 2), (10, 3), (11, 3),
    (12, 3), (13, 3), (14, 3), (15, 3), (16, 3), (17, 4), (18, 4)]

/-- R251: a SKIP run only advances the block counter, by the clamped run length (R244); it reads no bit, writes
no pixel and marks no block. -/
def Obligations.SkipRunEffect : Prop :=
  ∀ (i : BitVec 6) (c : Byte) (s : State), exec (.blkSkip i c) s =
    .next { s with
      work := { s.work with blk := s.work.blk + min (runLen i) (s.cfg.nb - s.work.blk), run := 0 } }

/-- R252, R253, R245: a FILL run gives every pixel of its blocks the colour and marks the blocks; every other
pixel and every other DIRTY bit stays; it reads no bit. -/
def Obligations.FillRunEffect : Prop :=
  ∀ (i : BitVec 6) (c : Byte) (s : State), ∃ t, exec (.blkFill i c) s = .next t ∧
    (let stop := s.work.blk + min (runLen i) (s.cfg.nb - s.work.blk)
     (∀ a, (∃ b, s.work.blk ≤ b ∧ b < stop ∧ onBlock s.cfg b a) → pixelAt t.surf a = c) ∧
     (∀ a, (∀ b, s.work.blk ≤ b → b < stop → ¬ onBlock s.cfg b a) → pixelAt t.surf a = pixelAt s.surf a) ∧
     (∀ b, b ∈ t.dirty ↔ b ∈ s.dirty ∨ (s.work.blk ≤ b ∧ b < stop)) ∧
     t = { s with surf := t.surf, dirty := t.dirty, work := { s.work with blk := stop, run := 0 } })

/-- R241, R244, R246, R247: a MONO run is its block, repeated for the clamped run length; a FULL run reads its
selector once and is the block of that mode, repeated; the four selectors do the same for the blocks left in
the run. What one block does is the subject of the statements below. -/
def Obligations.RunsRepeatTheirBlock : Prop :=
  ∀ (i : BitVec 6) (c : Byte) (s : State),
    (let g := s.cfg
     let n := min (runLen i) (g.nb - s.work.blk)
     let left := min s.work.run (g.nb - s.work.blk)
     let from' := fun (bits : Nat) => { s.frame with cur := s.work.cur.skip bits }
     exec (.blkMono i c) s = .next (s.withFrame ((paint (blockMono g))^[n] s.frame) 0 s.work.mode) ∧
     (g.subver = .v2 →
       exec (.blkFull i c) s = .next (s.withFrame ((paint (blockFull0 g))^[n] s.frame) 0 0)) ∧
     (g.subver = .v4 → s.work.cur.bit s.work.cur.pos = true →
       exec (.blkFull i c) s = .next (s.withFrame ((paint (blockFull1 g))^[n] (from' 1)) 0 1)) ∧
     (g.subver = .v4 → s.work.cur.bit s.work.cur.pos = false → s.work.cur.bit (s.work.cur.pos + 1) = true →
       exec (.blkFull i c) s = .next (s.withFrame ((paint (blockFull2 g))^[n] (from' 2)) 0 2)) ∧
     (g.subver = .v4 → s.work.cur.bit s.work.cur.pos = false → s.work.cur.bit (s.work.cur.pos + 1) = false →
       exec (.blkFull i c) s = .next (s.withFrame ((paint (blockFull0 g))^[n] (from' 2)) 0 0)) ∧
     exec .fullV2 s = .next (s.withFrame ((paint (blockFull0 g))^[left] s.frame) 0 0) ∧
     exec .fullV4M1 s = .next (s.withFrame ((paint (blockFull1 g))^[left] (from' 1)) 0 1) ∧
     exec .fullV4M2 s = .next (s.withFrame ((paint (blockFull2 g))^[left] (from' 2)) 0 2) ∧
     exec .fullV4M0 s = .next (s.withFrame ((paint (blockFull0 g))^[left] (from' 2)) 0 0))

/-- R246, R105: a MONO block reads its colour pair and then its mask; mask bit 4r + col chooses the high or low
index of the pixels of row r, column col; no other pixel changes. -/
def Obligations.MonoBlockPixels : Prop :=
  ∀ (g : Cfg) (f : FrameState), f.blk < g.nb →
    (let c := f.getCode .mclr
     let m := c.2.getCode .mmap
     let f' := paint (blockMono g) f
     (∀ r col a, onPixel g f.blk r col a →
       pixelAt f'.surf a = if m.1.getLsbD (4 * r + col) then c.1.extractLsb' 8 8 else c.1.extractLsb' 0 8) ∧
     (∀ a, ¬ onBlock g f.blk a → pixelAt f'.surf a = pixelAt f.surf a) ∧
     f'.wt = m.2.wt ∧ f'.cur = m.2.cur ∧ f'.blk = f.blk + 1 ∧ f'.dirty = markDirty f.blk f.dirty)

/-- R248, R249, R250: one FULL block of each mode. Mode 0 reads two codes per row: the first goes to columns 2 and
3, the second to columns 0 and 1, each low byte first. Mode 1 reads one code for rows 0 and 1 and one for rows 2
and 3: low byte to columns 0 and 1, high byte to columns 2 and 3. Mode 2 reads two codes for each half, placed as
in mode 0, for both rows of the half. No other pixel changes. -/
def Obligations.FullBlockPixels : Prop :=
  ∀ (g : Cfg) (f : FrameState), f.blk < g.nb →
    (let after := fun (n : Nat) => (fun h : FrameState => (h.getCode .full).2)^[n] f
     let code := fun (n : Nat) => ((after n).getCode .full).1
     let lo := fun (n : Nat) => (code n).extractLsb' 0 8
     let hi := fun (n : Nat) => (code n).extractLsb' 8 8
     let f0 := paint (blockFull0 g) f
     let f1 := paint (blockFull1 g) f
     let f2 := paint (blockFull2 g) f
     (∀ r a, onPixel g f.blk r 0 a → pixelAt f0.surf a = lo (2 * r + 1) ∧
       pixelAt f1.surf a = lo (r / 2) ∧ pixelAt f2.surf a = lo (r / 2 * 2 + 1)) ∧
     (∀ r a, onPixel g f.blk r 1 a → pixelAt f0.surf a = hi (2 * r + 1) ∧
       pixelAt f1.surf a = lo (r / 2) ∧ pixelAt f2.surf a = hi (r / 2 * 2 + 1)) ∧
     (∀ r a, onPixel g f.blk r 2 a → pixelAt f0.surf a = lo (2 * r) ∧
       pixelAt f1.surf a = hi (r / 2) ∧ pixelAt f2.surf a = lo (r / 2 * 2)) ∧
     (∀ r a, onPixel g f.blk r 3 a → pixelAt f0.surf a = hi (2 * r) ∧
       pixelAt f1.surf a = hi (r / 2) ∧ pixelAt f2.surf a = hi (r / 2 * 2)) ∧
     (∀ a, ¬ onBlock g f.blk a → pixelAt f0.surf a = pixelAt f.surf a ∧
       pixelAt f1.surf a = pixelAt f.surf a ∧ pixelAt f2.surf a = pixelAt f.surf a) ∧
     f0 = { f with wt := (after 8).wt, cur := (after 8).cur, surf := f0.surf, blk := f.blk + 1, dirty := markDirty f.blk f.dirty } ∧
     f1 = { f with wt := (after 2).wt, cur := (after 2).cur, surf := f1.surf, blk := f.blk + 1, dirty := markDirty f.blk f.dirty } ∧
     f2 = { f with wt := (after 4).wt, cur := (after 4).cur, surf := f2.surf, blk := f.blk + 1, dirty := markDirty f.blk f.dirty })

/-- R241, R206, R181: in READY a DECODE_FRAME whose buffer is long enough for any code completes: at most 8
codes and a selector per block and a type code per run, each code shorter than its tree's capacity. It
changes the trees' slot cells, S, DIRTY and SCAN and ends OK: the trees are the same once their slots are reset. -/
def Obligations.LongEnoughFramesComplete : Prop :=
  ∀ (vid : List Byte) (m : Nat) (s : State), s.Inv → s.phase = .ready → (∀ k, s.cfg.cap k ≤ m) →
    s.cfg.nb * (9 * m + 2) ≤ 8 * vid.length →
    ∃ t, exec (.decodeFrame vid) s = .next t ∧
      t = { s with
        wt := t.wt, surf := t.surf, dirty := t.dirty, scan := 0
        status := { code := .ok, cause := .none }, port := none } ∧
      ∀ k, wordReset (t.wt.get k) = wordReset (s.wt.get k)

/-- R146, R240, R241, R340: the end-of-command overrun check, for a buffer that is too short, the empty one among
them; each ends in FAILED. BUILD_TREES: the blob shows four trees inside their capacities, zeros past its end, and
their bits are more than it holds. DECODE_FRAME: the cursor stands past the end when the block runs have come to NB.
DECODE_AUDIO: the chunk shows a header, trees, bases and codes that match its track and size, and they are more than
it holds. The last two clauses are the empty blob, and the empty frame buffer where the grid is not empty and the
TYPE tree's root is an internal node. -/
def Obligations.EmptyBuffersOverrun : Prop :=
  (∀ (mmap mclr full typ : Option WordCode) (blob : List Byte) (s : State), s.phase = .configured →
    wordTreeFits (s.cfg.szMmap.toNat / 4) mmap → wordTreeFits (s.cfg.szMclr.toNat / 4) mclr →
    wordTreeFits (s.cfg.szFull.toNat / 4) full → wordTreeFits (s.cfg.szType.toNat / 4) typ →
    (let pat := wordTreeBits mmap ++ wordTreeBits mclr ++ wordTreeBits full ++ wordTreeBits typ
     (Cursor.over blob).shows 0 pat → 8 * blob.length < pat.length →
     ∃ t, exec (.buildTrees blob) s = .next t ∧
       t.status = { code := .dataTruncated, cause := .bootstrapOverrun } ∧ t.phase = .failed)) ∧
  (∀ (vid : List Byte) (n : Nat) (s : State), s.phase = .ready →
    (let after := fun m => (blockRun s.cfg)^[m] (frameStart s.wt s.surf vid)
     (∀ m, m < n → (after m).blk < s.cfg.nb) → (after n).blk = s.cfg.nb →
     8 * vid.length < (after n).cur.pos →
     ∃ t, exec (.decodeFrame vid) s = .next t ∧
       t.status = { code := .consistencyError, cause := .frameOverrun } ∧ t.phase = .failed)) ∧
  (∀ (d : ChunkCode) (track : BitVec 3) (chunk : List Byte) (unpacked info : Word) (s : State),
    s.phase = .configured ∨ s.phase = .ready → s.cfg.audio[track.toNat]? = some info →
    info.getLsbD 30 = true → info.getLsbD 31 = true → info.getLsbD 28 = d.st → info.getLsbD 29 = d.b16 →
    d.legal → unpacked.toNat = d.np * (d.frames.length + 1) →
    (Cursor.over chunk).shows 0 d.bits → 8 * chunk.length < d.bits.length →
    ∃ t, exec (.decodeAudio track chunk unpacked) s = .next t ∧
      t.status = { code := .dataTruncated, cause := .audioOverrun } ∧ t.phase = .failed) ∧
  (∀ s : State, s.phase = .configured → ∃ t, exec (.buildTrees []) s = .next t ∧
    t.status = { code := .dataTruncated, cause := .bootstrapOverrun } ∧ t.phase = .failed) ∧
  ∀ s : State, s.Inv → s.phase = .ready → 0 < s.cfg.nb → s.wt.typ.empty = false →
    (∃ r rest, s.wt.typ.nodes = .internal r :: rest) →
    ∃ t, exec (.decodeFrame []) s = .next t ∧
      t.status = { code := .consistencyError, cause := .frameOverrun } ∧ t.phase = .failed

/-- R254, R243, R244: DECODE_FRAME in READY is a number of block runs from the frame start. Each starts inside the
grid and moves blk by RUNLEN[T[7:2]], clamped, for the type code T it reads; the last ends at NB. The command ends OK
exactly where their bits lie inside the buffer, and its effect is then theirs. The second clause is what one block
run is, for every type code: T[1:0] selects MONO, FULL, SKIP or FILL, a FULL run reading its selector first; the
block is repeated as often as the run is long; SKIP only moves blk. The third is the FILL block that is repeated. -/
def Obligations.FrameCoversEveryBlock : Prop :=
  (∀ (vid : List Byte) (s : State), s.phase = .ready →
    (let start : FrameState :=
       { wt :=
           { mmap := wordReset s.wt.mmap, mclr := wordReset s.wt.mclr
             full := wordReset s.wt.full, typ := wordReset s.wt.typ }
         cur := { buf := vid, pos := 0, ovr := false }, surf := s.surf, dirty := [], blk := 0 }
     let after := fun m => (blockRun s.cfg)^[m] start
     ∃ n,
       (∀ m, m < n → (after m).blk < s.cfg.nb ∧
         (after (m + 1)).blk = (after m).blk +
           min (runLen (((after m).getCode .typ).1.extractLsb' 2 6)) (s.cfg.nb - (after m).blk)) ∧
       (after n).blk = s.cfg.nb ∧
       ((after n).cur.pos ≤ 8 * vid.length →
         exec (.decodeFrame vid) s =
           .next { s with
             wt := (after n).wt, surf := (after n).surf, dirty := (after n).dirty, scan := 0
             status := { code := .ok, cause := .none }, port := none, work := Work.idle }) ∧
       ∀ t, exec (.decodeFrame vid) s = .next t → t.status.code = .ok → (after n).cur.pos ≤ 8 * vid.length)) ∧
  (∀ (g : Cfg) (f : FrameState),
    (let T := (f.getCode .typ).1
     let h := (f.getCode .typ).2
     let n := min (runLen (T.extractLsb' 2 6)) (g.nb - f.blk)
     let b0 := h.cur.bit h.cur.pos
     let b1 := h.cur.bit (h.cur.pos + 1)
     (T.toNat % 4 = 0 → blockRun g f = (paint (blockMono g))^[n] h) ∧
     (T.toNat % 4 = 1 → g.subver = .v2 → blockRun g f = (paint (blockFull0 g))^[n] h) ∧
     (T.toNat % 4 = 1 → g.subver = .v4 → b0 = true →
       blockRun g f = (paint (blockFull1 g))^[n] { h with cur := h.cur.skip 1 }) ∧
     (T.toNat % 4 = 1 → g.subver = .v4 → b0 = false → b1 = true →
       blockRun g f = (paint (blockFull2 g))^[n] { h with cur := h.cur.skip 2 }) ∧
     (T.toNat % 4 = 1 → g.subver = .v4 → b0 = false → b1 = false →
       blockRun g f = (paint (blockFull0 g))^[n] { h with cur := h.cur.skip 2 }) ∧
     (T.toNat % 4 = 2 → blockRun g f = { h with blk := f.blk + n }) ∧
     (T.toNat % 4 = 3 → blockRun g f = (paint (blockFill g (T.extractLsb' 8 8)))^[n] h))) ∧
  ∀ (g : Cfg) (c : Byte) (f : FrameState), f.blk < g.nb →
    (let f' := paint (blockFill g c) f
     (∀ a, onBlock g f.blk a → pixelAt f'.surf a = c) ∧
     (∀ a, ¬ onBlock g f.blk a → pixelAt f'.surf a = pixelAt f.surf a) ∧
     f' = { f with surf := f'.surf, blk := f.blk + 1, dirty := markDirty f.blk f.dirty })

/-- R255, R253: a DECODE_FRAME that ends OK changes no pixel outside the blocks it marks dirty, and what it gives
their pixels does not depend on the surface before. -/
def Obligations.FrameWritesItsBlocksOnly : Prop :=
  ∀ (vid : List Byte) (surf : Memory Byte) (s t u : State), s.phase = .ready →
    exec (.decodeFrame vid) s = .next t → exec (.decodeFrame vid) { s with surf := surf } = .next u →
    t.status.code = .ok →
    u.status.code = .ok ∧ u.dirty = t.dirty ∧ u.wt = t.wt ∧
    (∀ b ∈ t.dirty, b < s.cfg.nb) ∧
    (∀ b ∈ t.dirty, ∀ a, onBlock s.cfg b a → pixelAt u.surf a = pixelAt t.surf a) ∧
    (∀ a, (∀ b ∈ t.dirty, ¬ onBlock s.cfg b a) → pixelAt t.surf a = pixelAt s.surf a)

/-- R257, R212: whatever frame came before, a frame decoded on the same surface from the same bits gives the same
surface, the same DIRTY bits, the same trees and the same cursor. -/
def Obligations.FramesForgetEarlierFrames : Prop :=
  ∀ (vid vid' : List Byte) (surf : Memory Byte) (s t : State), s.phase = .ready →
    exec (.decodeFrame vid) s = .next t → t.status.code = .ok →
    decodeFrame t.cfg t.wt surf vid' = decodeFrame s.cfg s.wt surf vid'

/-- R240, R100: in CONFIGURED, a blob that holds the four trees in the order MMAP, MCLR, FULL, TYPE, each
inside its capacity, builds them all and leads to READY. -/
def Obligations.BuildTreesReadsTheBlob : Prop :=
  ∀ (mmap mclr full typ : Option WordCode) (blob : List Byte) (s : State), s.phase = .configured →
    wordTreeFits (s.cfg.szMmap.toNat / 4) mmap → wordTreeFits (s.cfg.szMclr.toNat / 4) mclr →
    wordTreeFits (s.cfg.szFull.toNat / 4) full → wordTreeFits (s.cfg.szType.toNat / 4) typ →
    (let pat := wordTreeBits mmap ++ wordTreeBits mclr ++ wordTreeBits full ++ wordTreeBits typ
     (Cursor.over blob).shows 0 pat → pat.length ≤ 8 * blob.length →
     exec (.buildTrees blob) s =
       .next { s with
         wt :=
           { mmap := { wordTreeOf s.wt.mmap mmap with built := true }
             mclr := { wordTreeOf s.wt.mclr mclr with built := true }
             full := { wordTreeOf s.wt.full full with built := true }
             typ := { wordTreeOf s.wt.typ typ with built := true } }
         phase := .ready, status := { code := .ok, cause := .none }, port := none, work := Work.idle })

/-! ### Dirty rectangles -/

/-- R290 to R296: with no dirty block at or after SCAN the result is NONE and SCAN is 0. Else, with k the first, the
rectangle starts at k, is the maximal dirty run of its row, takes each row below whose run is dirty and whose
neighbours are clean, and no row after the first that fails; its bits are cleared and no others; SCAN is k;
RECT is in pixel units wherever they fit a u32 (log 8 for the rest). -/
def Obligations.GetDirtyRectEffect : Prop :=
  (∀ s : State, s.phase = .configured ∨ s.phase = .ready →
    (∀ b ∈ s.dirty, s.scan ≤ b → s.cfg.nb ≤ b) →
    exec .getDirtyRect s =
      .next { s with
        scan := 0, rect := none, status := { code := .ok, cause := .none }, port := none, work := Work.idle }) ∧
  ∀ (k : Nat) (s : State), s.phase = .configured ∨ s.phase = .ready →
    k ∈ s.dirty → s.scan ≤ k → k < s.cfg.nb → (∀ b ∈ s.dirty, s.scan ≤ b → k ≤ b) →
    ∃ (x1 y1 : Nat) (r : Rect),
      (let w := s.cfg.bw
       let x0 := k % w
       let y0 := k / w
       let joins := fun (y : Nat) => (∀ x, x0 ≤ x → x < x1 → y * w + x ∈ s.dirty) ∧
         (x0 = 0 ∨ y * w + (x0 - 1) ∉ s.dirty) ∧ (x1 = w ∨ y * w + x1 ∉ s.dirty)
       x0 < x1 ∧ x1 ≤ w ∧ (∀ x, x0 ≤ x → x < x1 → y0 * w + x ∈ s.dirty) ∧
       (x1 = w ∨ y0 * w + x1 ∉ s.dirty) ∧
       y0 < y1 ∧ y1 ≤ s.cfg.bh ∧ (∀ y, y0 < y → y < y1 → joins y) ∧ (y1 = s.cfg.bh ∨ ¬ joins y1) ∧
       r.left.toNat = 4 * x0 ∧ r.right.toNat = 4 * x1 ∧
       (4 * y0 * s.cfg.d < 2 ^ 32 → r.top.toNat = 4 * y0 * s.cfg.d) ∧
       (4 * y1 * s.cfg.d < 2 ^ 32 → r.bottom.toNat = 4 * y1 * s.cfg.d) ∧
       exec .getDirtyRect s =
         .next { s with
           dirty := s.dirty.filter fun b =>
             !(decide (x0 ≤ b % w) && decide (b % w < x1) && decide (y0 ≤ b / w) && decide (b / w < y1))
           scan := k, rect := some r
           status := { code := .ok, cause := .none }, port := none, work := Work.idle })

/-- R297: from any state of the invariant the calls come to NONE after at most NB rectangles; these lie inside
the grid, do not overlap, and together hold exactly the blocks that were dirty. -/
def Obligations.DirtySequenceIsFiniteAndExact : Prop :=
  ∀ s : State, s.Inv → s.phase = .configured ∨ s.phase = .ready →
    ∃ rs u, Drains s rs u ∧ rs.length ≤ s.cfg.nb ∧ u.dirty = [] ∧
      (∀ r ∈ rs, r.x0 < r.x1 ∧ r.x1 ≤ s.cfg.bw ∧ r.y0 < r.y1 ∧ r.y1 ≤ s.cfg.bh) ∧
      rs.Pairwise (fun p q => ∀ b, b < s.cfg.nb → ¬ (p.contains s.cfg b = true ∧ q.contains s.cfg b = true)) ∧
      ∀ b, b ∈ s.dirty ↔ b < s.cfg.nb ∧ ∃ r ∈ rs, r.contains s.cfg b = true

/-! ### The palette -/

/-- R313: PAL_SKIP inside the palette moves e and nothing else; past entry 255 it is PAL_OVERSHOOT, in FAILED. -/
def Obligations.PalSkipEffect : Prop :=
  ∀ (n : BitVec 7) (s : State),
    (s.work.palEntry + (n.toNat + 1) ≤ 256 →
      exec (.palSkip n) s =
        .next { s with
          work := { s.work with
            palPos := s.work.palPos + 1, palEntry := s.work.palEntry + (n.toNat + 1) } }) ∧
    (256 < s.work.palEntry + (n.toNat + 1) → ∃ t, exec (.palSkip n) s = .next t ∧
      t.status = { code := .consistencyError, cause := .palOvershoot } ∧ t.phase = .failed)

/-- R314, R311: PAL_COPY reads SRC below len and copies entries of OLD; its three errors, in order. (Where len is
past the buffer's end, which no command leads to, a byte there reads as 0: log 27.) -/
def Obligations.PalCopyEffect : Prop :=
  ∀ (n : BitVec 6) (s : State),
    (let src := (s.work.cur.buf.getD (s.work.palPos + 1) 0).toNat
     let e := s.work.palEntry
     let count := n.toNat + 1
     ∃ t, exec (.palCopy n) s = .next t ∧
       (if s.work.palLen ≤ s.work.palPos + 1 then
          t.status = { code := .dataTruncated, cause := .palTrunc } ∧ t.phase = .failed
        else if 256 < e + count then
          t.status = { code := .consistencyError, cause := .palOvershoot } ∧ t.phase = .failed
        else if 256 < src + count then
          t.status = { code := .consistencyError, cause := .palCopyRange } ∧ t.phase = .failed
        else
          t = { s with
            pal := t.pal, work := { s.work with palPos := s.work.palPos + 2, palEntry := e + count } } ∧
          ∀ i, entryAt t.pal i =
            if e ≤ i ∧ i < e + count then entryAt s.work.old (src + (i - e)) else entryAt s.pal i))

/-- R315, R311, R319: PAL_LIT reads two bytes below len and writes one entry, upscaled; it is PAL_TRUNC where
either byte lies at or past len, in FAILED. (Where len is past the buffer's end, which no command leads to, a byte
there reads as 0: log 27; e of 256 or more: log 26.) -/
def Obligations.PalLitEffect : Prop :=
  ∀ (r6 : BitVec 6) (s : State),
    (let g := (s.work.cur.buf.getD (s.work.palPos + 1) 0).toNat % 64
     let b := (s.work.cur.buf.getD (s.work.palPos + 2) 0).toNat % 64
     ∃ t, exec (.palLit r6) s = .next t ∧
       (if s.work.palLen ≤ s.work.palPos + 2 then
          t.status = { code := .dataTruncated, cause := .palTrunc } ∧ t.phase = .failed
        else
          t = { s with
            pal := t.pal
            work := { s.work with palPos := s.work.palPos + 3, palEntry := s.work.palEntry + 1 } } ∧
          ∀ i, entryAt t.pal i =
            if i = s.work.palEntry then
              { r := upscaled r6.toNat, g := upscaled g, b := upscaled b }
            else entryAt s.pal i))

/-- R310, R312 to R316, R318, R320: a chunk of records that together produce 256 entries inside its length is
unpacked: every entry has the value its record gives it from the old palette, CONSUMED is 4·B[0], PAL_DIRTY is
set, and nothing else changes. -/
def Obligations.UnpackPaletteEffect : Prop :=
  ∀ (lenq : Byte) (rs : List PalRecord) (rest : List Byte) (s : State),
    s.phase = .configured ∨ s.phase = .ready →
    (rs.map PalRecord.span).sum = 256 → (∀ r ∈ rs, r.legal) →
    1 + (rs.flatMap PalRecord.bytes).length ≤ 4 * lenq.toNat →
    4 * lenq.toNat ≤ (lenq :: (rs.flatMap PalRecord.bytes ++ rest)).length →
    ∃ t, exec (.unpackPalette (lenq :: (rs.flatMap PalRecord.bytes ++ rest))) s = .next t ∧
      t = { s with
        pal := t.pal, palDirty := true, consumed := BitVec.ofNat 32 (4 * lenq.toNat)
        status := { code := .ok, cause := .none }, port := none, work := Work.idle } ∧
      (∀ i, i < 256 → entryAt t.pal i = paletteAfter (entryAt s.pal) 0 i rs) ∧
      ∀ i, 256 ≤ i → entryAt t.pal i = entryAt s.pal i

/-- R310, R311, R313, R314, R315: the errors of UNPACK_PALETTE, each in FAILED. The first clause: an empty chunk, a
first byte of 0, and a chunk shorter than 4·B[0] are PAL_LEN. The second: after legal records rs that lie below
len = 4·B[0] and give fewer than 256 entries, with p and e where they end, the command is PAL_TRUNC where no control
byte is left below len, or where the record that the control byte begins does not lie below len; a whole record r is
PAL_OVERSHOOT where it passes entry 255, else PAL_COPY_RANGE where it is a copy that reads past entry 255. -/
def Obligations.PaletteLengthErrors : Prop :=
  (∀ (chunk : List Byte) (s : State), s.phase = .configured ∨ s.phase = .ready →
    chunk = [] ∨ chunk.head? = some 0 ∨ (∃ b, chunk.head? = some b ∧ chunk.length < 4 * b.toNat) →
    ∃ t, exec (.unpackPalette chunk) s = .next t ∧
      t.status = { code := .dataTruncated, cause := .palLen } ∧ t.phase = .failed) ∧
  ∀ (lenq : Byte) (rs : List PalRecord) (rest : List Byte) (s : State),
    s.phase = .configured ∨ s.phase = .ready →
    (∀ r ∈ rs, r.legal) → (rs.map PalRecord.span).sum < 256 →
    (let chunk := lenq :: (rs.flatMap PalRecord.bytes ++ rest)
     let len := 4 * lenq.toNat
     let p := 1 + (rs.flatMap PalRecord.bytes).length
     let e := (rs.map PalRecord.span).sum
     let ends := fun (code : Code) (cause : Cause) => ∃ t, exec (.unpackPalette chunk) s = .next t ∧
       t.status = { code := code, cause := cause } ∧ t.phase = .failed
     p ≤ len → len ≤ chunk.length →
     (p = len → ends .dataTruncated .palTrunc) ∧
     (∀ r : PalRecord, p < len → rest.head? = r.bytes.head? → len < p + r.bytes.length →
       ends .dataTruncated .palTrunc) ∧
     ∀ r : PalRecord, p + r.bytes.length ≤ len → r.bytes <+: rest →
       (256 < e + r.span → ends .consistencyError .palOvershoot) ∧
       (e + r.span ≤ 256 → ¬ r.legal → ends .consistencyError .palCopyRange))

/-- R317: ACK_PALETTE clears PAL_DIRTY and nothing else. -/
def Obligations.AckPaletteEffect : Prop :=
  ∀ s : State, s.phase = .configured ∨ s.phase = .ready →
    exec .ackPalette s =
      .next { s with
        palDirty := false, status := { code := .ok, cause := .none }, port := none, work := Work.idle }

/-! ### Audio -/

/-- R341, R404: the track and compression tests, in the order of the table; each outcome but the last changes
nothing but STATUS. -/
def Obligations.AudioDispatchTable : Prop :=
  ∀ (track : BitVec 3) (chunk : List Byte) (unpacked : Word) (s : State),
    s.phase = .configured ∨ s.phase = .ready →
    (let ends := fun (code : Code) (cause : Cause) =>
      exec (.decodeAudio track chunk unpacked) s =
        .next { s with status := { code := code, cause := cause }, port := none }
     (track = 7 → ends .refused .badTrack) ∧
     ∀ info, s.cfg.audio[track.toNat]? = some info →
       (info.getLsbD 30 = false → ends .refused .badTrack) ∧
       (info.getLsbD 30 = true → info.getLsbD 31 = false →
         (info.getLsbD 27 = true → ends .unsupportedFeature .unsupportedRdft) ∧
         (info.getLsbD 27 = false → info.getLsbD 26 = true → ends .unsupportedFeature .unsupportedDct) ∧
         (info.getLsbD 27 = false → info.getLsbD 26 = false → ends .refused .audioNotCompressed)))

/-- R351: a chunk whose first bit is 0, the empty chunk among them, ends OK with OUT empty and changes nothing
else, whatever UNPACKED and the rest of the chunk are. -/
def Obligations.AbsentAudio : Prop :=
  ∀ (track : BitVec 3) (chunk : List Byte) (unpacked info : Word) (s : State),
    s.phase = .configured ∨ s.phase = .ready → s.cfg.audio[track.toNat]? = some info →
    info.getLsbD 30 = true → info.getLsbD 31 = true → (chunk.getD 0 0).getLsbD 0 = false →
    exec (.decodeAudio track chunk unpacked) s =
      .next { s with
        out := [], status := { code := .ok, cause := .none }, port := none, work := Work.idle }

/-- R340, R344 to R350: a chunk with data that matches its track and its size decodes to its samples: the bases,
then each frame's accumulators, left before right; OUT and the track's sample rate go to the host and nothing
else changes. -/
def Obligations.PresentAudioEffect : Prop :=
  ∀ (d : ChunkCode) (track : BitVec 3) (chunk : List Byte) (unpacked info : Word) (s : State),
    s.phase = .configured ∨ s.phase = .ready → s.cfg.audio[track.toNat]? = some info →
    info.getLsbD 30 = true → info.getLsbD 31 = true → info.getLsbD 28 = d.st → info.getLsbD 29 = d.b16 →
    d.legal → unpacked.toNat = d.np * (d.frames.length + 1) →
    (Cursor.over chunk).shows 0 d.bits → d.bits.length ≤ 8 * chunk.length →
    exec (.decodeAudio track chunk unpacked) s =
      .next { s with
        out := d.out, outRate := info.extractLsb' 0 24
        status := { code := .ok, cause := .none }, port := none, work := Work.idle }

/-- R340, R344 to R348, R351: AUD_PRESENT executed on its own decodes the rest of its chunk from the running command's
cursor, TRACK and UNPACKED, and ends the command with its samples in OUT and the track's sample rate beside it (log
18, DEDUCED); AUD_ABSENT ends it with OUT empty. That these rows can be executed on their own, and from what, is the
model's choice (logs 10 and 11). -/
def Obligations.AudioHeaderEffects : Prop :=
  (∀ (d : ChunkCode) (info : Word) (s : State), s.cfg.audio[s.work.track.toNat]? = some info →
    info.getLsbD 30 = true → info.getLsbD 31 = true → info.getLsbD 28 = d.st → info.getLsbD 29 = d.b16 →
    d.legal → s.work.unpacked.toNat = d.np * (d.frames.length + 1) → s.work.samples = [] →
    s.work.cur.shows s.work.cur.pos d.bits → s.work.cur.ovr = false →
    s.work.cur.pos + d.bits.length ≤ 8 * s.work.cur.buf.length →
    exec .audPresent s =
      .next { s with
        out := d.out, outRate := info.extractLsb' 0 24
        status := { code := .ok, cause := .none }, port := none, work := Work.idle }) ∧
  ∀ s : State, exec .audAbsent s =
    .next { s with out := [], status := { code := .ok, cause := .none }, port := none, work := Work.idle }

/-- R342, R343, R406: with data present, a configuration that differs from the track's is AUDIO_CONFIG; else a
size below NP or not a multiple of NP is AUDIO_SIZE; both in FAILED. -/
def Obligations.AudioChecks : Prop :=
  ∀ (track : BitVec 3) (chunk : List Byte) (unpacked info : Word) (s : State),
    s.phase = .configured ∨ s.phase = .ready → s.cfg.audio[track.toNat]? = some info →
    info.getLsbD 30 = true → info.getLsbD 31 = true → (chunk.getD 0 0).getLsbD 0 = true →
    (let st := (chunk.getD 0 0).getLsbD 1
     let b16 := (chunk.getD 0 0).getLsbD 2
     let np := (if st then 2 else 1) * (if b16 then 2 else 1)
     (st ≠ info.getLsbD 28 ∨ b16 ≠ info.getLsbD 29 →
       ∃ t, exec (.decodeAudio track chunk unpacked) s = .next t ∧
         t.status = { code := .consistencyError, cause := .audioConfig } ∧ t.phase = .failed) ∧
     (st = info.getLsbD 28 → b16 = info.getLsbD 29 → unpacked.toNat < np ∨ unpacked.toNat % np ≠ 0 →
       ∃ t, exec (.decodeAudio track chunk unpacked) s = .next t ∧
         t.status = { code := .consistencyError, cause := .audioSize } ∧ t.phase = .failed))

/-- R352, R348: a DECODE_AUDIO that ends OK with data present emits UNPACKED div bps samples, which are UNPACKED
bytes whatever PCM16_OUT_ORDER is. -/
def Obligations.AudioOutputLength : Prop :=
  ∀ (track : BitVec 3) (chunk : List Byte) (unpacked info : Word) (s t : State),
    s.phase = .configured ∨ s.phase = .ready → s.cfg.audio[track.toNat]? = some info →
    (chunk.getD 0 0).getLsbD 0 = true →
    exec (.decodeAudio track chunk unpacked) s = .next t → t.status.code = .ok →
    t.out.length = unpacked.toNat / (if info.getLsbD 29 then 2 else 1) ∧
    (outBytes t.out).length = unpacked.toNat

/-- R353: what DECODE_AUDIO answers depends on its operands and AUDIO[TRACK] alone, and one that ends OK leaves
the surface, the palette, the trees and every register but its own results as they were. -/
def Obligations.AudioIsIndependent : Prop :=
  ∀ (track : BitVec 3) (chunk : List Byte) (unpacked : Word) (s s' t t' : State),
    s.phase = .configured ∨ s.phase = .ready → s'.phase = .configured ∨ s'.phase = .ready →
    s.cfg.audio[track.toNat]? = s'.cfg.audio[track.toNat]? →
    exec (.decodeAudio track chunk unpacked) s = .next t →
    exec (.decodeAudio track chunk unpacked) s' = .next t' →
    t.status = t'.status ∧
    (t.status.code = .ok → t.out = t'.out ∧
      t = { s with
        out := t.out, outRate := t.outRate, status := t.status, port := none, work := Work.idle })

/-! ### Managing the unit -/

/-- R380, R381, R403: CONFIGURE in UNCONFIGURED, for the two signatures and for any other. The second clause is
what the other commands make of the configuration: D from FLAGS[2:1], the block grid, the capacities, and the
initial value that every pixel and every entry then reads (R4, R444). -/
def Obligations.ConfigureEffect : Prop :=
  (∀ (ops : ConfigOps) (s : State), s.phase = .unconfigured →
    (let done := fun (sv : SubVer) =>
      exec (.configure ops) s =
        .next { s with
          cfg :=
            { subver := sv, w := ops.w, h := ops.h, flags := ops.flags
              szMmap := ops.szMmap, szMclr := ops.szMclr, szFull := ops.szFull, szType := ops.szType
              audio := ops.audio }
          wt :=
            { mmap := { s.wt.mmap with built := false }, mclr := { s.wt.mclr with built := false }
              full := { s.wt.full with built := false }, typ := { s.wt.typ with built := false } }
          surf := { base := .init, cells := [] }, dirty := [], scan := 0
          pal := { base := .init, cells := [] }, palDirty := false
          phase := .configured, status := { code := .ok, cause := .none }, port := none, work := Work.idle }
     let old : Sig := { b0 := 0x53, b1 := 0x4D, b2 := 0x4B, b3 := 0x32 }
     let new : Sig := { b0 := 0x53, b1 := 0x4D, b2 := 0x4B, b3 := 0x34 }
     (ops.sig = old → done .v2) ∧ (ops.sig = new → done .v4) ∧
     (ops.sig ≠ old → ops.sig ≠ new →
       exec (.configure ops) s =
         .next { s with status := { code := .formatError, cause := .badSignature }, port := none }))) ∧
  ∀ (ops : ConfigOps) (sv : SubVer) (s : State),
    (let t := s.configure ops sv
     t.cfg.d = (if ops.flags.toNat / 2 % 4 = 0 then 1 else 2) ∧
     t.cfg.bw = ops.w.toNat / 4 ∧ t.cfg.bh = ops.h.toNat / 4 ∧ t.cfg.nb = ops.w.toNat / 4 * (ops.h.toNat / 4) ∧
     t.cfg.cap .mmap = ops.szMmap.toNat / 4 ∧ t.cfg.cap .mclr = ops.szMclr.toNat / 4 ∧
     t.cfg.cap .full = ops.szFull.toNat / 4 ∧ t.cfg.cap .typ = ops.szType.toNat / 4 ∧
     (∀ a, pixelAt t.surf a = Config.initSurface a) ∧ ∀ e, entryAt t.pal e = Config.initPalette e)
end

