-- ==== Sys2Proof/Laws/State.lean ====
section
/-! SUPPORT. One lemma per field per update of State, so that no proof unfolds a record update. -/

namespace Sys2Proof.Machine

section report
variable (s : State) (cause : Cause)
@[simp] theorem State.report_phase : (s.report cause).phase = s.phase := rfl
@[simp] theorem State.report_status : (s.report cause).status = Status.of cause := rfl
@[simp] theorem State.report_cfg : (s.report cause).cfg = s.cfg := rfl
@[simp] theorem State.report_wt : (s.report cause).wt = s.wt := rfl
@[simp] theorem State.report_surf : (s.report cause).surf = s.surf := rfl
@[simp] theorem State.report_dirty : (s.report cause).dirty = s.dirty := rfl
@[simp] theorem State.report_scan : (s.report cause).scan = s.scan := rfl
@[simp] theorem State.report_pal : (s.report cause).pal = s.pal := rfl
@[simp] theorem State.report_palDirty : (s.report cause).palDirty = s.palDirty := rfl
@[simp] theorem State.report_consumed : (s.report cause).consumed = s.consumed := rfl
@[simp] theorem State.report_rect : (s.report cause).rect = s.rect := rfl
@[simp] theorem State.report_out : (s.report cause).out = s.out := rfl
@[simp] theorem State.report_outRate : (s.report cause).outRate = s.outRate := rfl
@[simp] theorem State.report_port : (s.report cause).port = none := rfl
@[simp] theorem State.report_resetPin : (s.report cause).resetPin = s.resetPin := rfl
@[simp] theorem State.report_work : (s.report cause).work = s.work := rfl
@[simp] theorem State.report_expect : (s.report cause).expect = s.expect := rfl
@[simp] theorem State.report_fails : (s.report cause).fails = s.fails := rfl
end report

section failWith
variable (s : State) (n : Nat)
@[simp] theorem State.failWith_phase : (s.failWith n).phase = .failed := rfl
@[simp] theorem State.failWith_status : (s.failWith n).status = s.status := rfl
@[simp] theorem State.failWith_cfg : (s.failWith n).cfg = s.cfg := rfl
@[simp] theorem State.failWith_wt : (s.failWith n).wt =
    { mmap := Config.failedTree n .mmap, mclr := Config.failedTree n .mclr, full := Config.failedTree n .full, typ := Config.failedTree n .typ } := rfl
@[simp] theorem State.failWith_surf : (s.failWith n).surf = Memory.blank (.failed n) := rfl
@[simp] theorem State.failWith_dirty : (s.failWith n).dirty = Config.failedDirty n := rfl
@[simp] theorem State.failWith_scan : (s.failWith n).scan = Config.failedScan n := rfl
@[simp] theorem State.failWith_pal : (s.failWith n).pal = Memory.blank (.failed n) := rfl
@[simp] theorem State.failWith_palDirty : (s.failWith n).palDirty = Config.failedPalDirty n := rfl
@[simp] theorem State.failWith_consumed : (s.failWith n).consumed = s.consumed := rfl
@[simp] theorem State.failWith_rect : (s.failWith n).rect = s.rect := rfl
@[simp] theorem State.failWith_out : (s.failWith n).out = s.out := rfl
@[simp] theorem State.failWith_outRate : (s.failWith n).outRate = s.outRate := rfl
@[simp] theorem State.failWith_port : (s.failWith n).port = s.port := rfl
@[simp] theorem State.failWith_resetPin : (s.failWith n).resetPin = s.resetPin := rfl
@[simp] theorem State.failWith_work : (s.failWith n).work = s.work := rfl
@[simp] theorem State.failWith_expect : (s.failWith n).expect = s.expect := rfl
@[simp] theorem State.failWith_fails : (s.failWith n).fails = n := rfl
end failWith

section finish
variable (s : State)
@[simp] theorem State.finish_phase : (s.finish).phase = s.phase := rfl
@[simp] theorem State.finish_status : (s.finish).status = Status.of .none := rfl
@[simp] theorem State.finish_cfg : (s.finish).cfg = s.cfg := rfl
@[simp] theorem State.finish_wt : (s.finish).wt = s.wt := rfl
@[simp] theorem State.finish_surf : (s.finish).surf = s.surf := rfl
@[simp] theorem State.finish_dirty : (s.finish).dirty = s.dirty := rfl
@[simp] theorem State.finish_scan : (s.finish).scan = s.scan := rfl
@[simp] theorem State.finish_pal : (s.finish).pal = s.pal := rfl
@[simp] theorem State.finish_palDirty : (s.finish).palDirty = s.palDirty := rfl
@[simp] theorem State.finish_consumed : (s.finish).consumed = s.consumed := rfl
@[simp] theorem State.finish_rect : (s.finish).rect = s.rect := rfl
@[simp] theorem State.finish_out : (s.finish).out = s.out := rfl
@[simp] theorem State.finish_outRate : (s.finish).outRate = s.outRate := rfl
@[simp] theorem State.finish_port : (s.finish).port = none := rfl
@[simp] theorem State.finish_resetPin : (s.finish).resetPin = s.resetPin := rfl
@[simp] theorem State.finish_work : (s.finish).work = Work.idle := rfl
@[simp] theorem State.finish_expect : (s.finish).expect = s.expect := rfl
@[simp] theorem State.finish_fails : (s.finish).fails = s.fails := rfl
end finish

section taken
variable (s : State)
@[simp] theorem State.taken_phase : (s.taken).phase = s.phase := rfl
@[simp] theorem State.taken_status : (s.taken).status = s.status := rfl
@[simp] theorem State.taken_cfg : (s.taken).cfg = s.cfg := rfl
@[simp] theorem State.taken_wt : (s.taken).wt = s.wt := rfl
@[simp] theorem State.taken_surf : (s.taken).surf = s.surf := rfl
@[simp] theorem State.taken_dirty : (s.taken).dirty = s.dirty := rfl
@[simp] theorem State.taken_scan : (s.taken).scan = s.scan := rfl
@[simp] theorem State.taken_pal : (s.taken).pal = s.pal := rfl
@[simp] theorem State.taken_palDirty : (s.taken).palDirty = s.palDirty := rfl
@[simp] theorem State.taken_consumed : (s.taken).consumed = s.consumed := rfl
@[simp] theorem State.taken_rect : (s.taken).rect = s.rect := rfl
@[simp] theorem State.taken_out : (s.taken).out = s.out := rfl
@[simp] theorem State.taken_outRate : (s.taken).outRate = s.outRate := rfl
@[simp] theorem State.taken_port : (s.taken).port = s.port := rfl
@[simp] theorem State.taken_resetPin : (s.taken).resetPin = s.resetPin := rfl
@[simp] theorem State.taken_work : (s.taken).work = s.work := rfl
@[simp] theorem State.taken_expect : (s.taken).expect = .command := rfl
@[simp] theorem State.taken_fails : (s.taken).fails = s.fails := rfl
end taken

section withCursor
variable (s : State) (c : Cursor)
@[simp] theorem State.withCursor_phase : (s.withCursor c).phase = s.phase := rfl
@[simp] theorem State.withCursor_status : (s.withCursor c).status = s.status := rfl
@[simp] theorem State.withCursor_cfg : (s.withCursor c).cfg = s.cfg := rfl
@[simp] theorem State.withCursor_wt : (s.withCursor c).wt = s.wt := rfl
@[simp] theorem State.withCursor_surf : (s.withCursor c).surf = s.surf := rfl
@[simp] theorem State.withCursor_dirty : (s.withCursor c).dirty = s.dirty := rfl
@[simp] theorem State.withCursor_scan : (s.withCursor c).scan = s.scan := rfl
@[simp] theorem State.withCursor_pal : (s.withCursor c).pal = s.pal := rfl
@[simp] theorem State.withCursor_palDirty : (s.withCursor c).palDirty = s.palDirty := rfl
@[simp] theorem State.withCursor_consumed : (s.withCursor c).consumed = s.consumed := rfl
@[simp] theorem State.withCursor_rect : (s.withCursor c).rect = s.rect := rfl
@[simp] theorem State.withCursor_out : (s.withCursor c).out = s.out := rfl
@[simp] theorem State.withCursor_outRate : (s.withCursor c).outRate = s.outRate := rfl
@[simp] theorem State.withCursor_port : (s.withCursor c).port = s.port := rfl
@[simp] theorem State.withCursor_resetPin : (s.withCursor c).resetPin = s.resetPin := rfl
@[simp] theorem State.withCursor_work : (s.withCursor c).work = { s.work with cur := c } := rfl
@[simp] theorem State.withCursor_expect : (s.withCursor c).expect = s.expect := rfl
@[simp] theorem State.withCursor_fails : (s.withCursor c).fails = s.fails := rfl
end withCursor

section withResult
variable (s : State) (v : Half) (c : Cursor)
@[simp] theorem State.withResult_phase : (s.withResult v c).phase = s.phase := rfl
@[simp] theorem State.withResult_status : (s.withResult v c).status = s.status := rfl
@[simp] theorem State.withResult_cfg : (s.withResult v c).cfg = s.cfg := rfl
@[simp] theorem State.withResult_wt : (s.withResult v c).wt = s.wt := rfl
@[simp] theorem State.withResult_surf : (s.withResult v c).surf = s.surf := rfl
@[simp] theorem State.withResult_dirty : (s.withResult v c).dirty = s.dirty := rfl
@[simp] theorem State.withResult_scan : (s.withResult v c).scan = s.scan := rfl
@[simp] theorem State.withResult_pal : (s.withResult v c).pal = s.pal := rfl
@[simp] theorem State.withResult_palDirty : (s.withResult v c).palDirty = s.palDirty := rfl
@[simp] theorem State.withResult_consumed : (s.withResult v c).consumed = s.consumed := rfl
@[simp] theorem State.withResult_rect : (s.withResult v c).rect = s.rect := rfl
@[simp] theorem State.withResult_out : (s.withResult v c).out = s.out := rfl
@[simp] theorem State.withResult_outRate : (s.withResult v c).outRate = s.outRate := rfl
@[simp] theorem State.withResult_port : (s.withResult v c).port = s.port := rfl
@[simp] theorem State.withResult_resetPin : (s.withResult v c).resetPin = s.resetPin := rfl
@[simp] theorem State.withResult_work : (s.withResult v c).work = { s.work with cur := c, res := v } := rfl
@[simp] theorem State.withResult_expect : (s.withResult v c).expect = s.expect := rfl
@[simp] theorem State.withResult_fails : (s.withResult v c).fails = s.fails := rfl
end withResult

section withByteTree
variable (s : State) (d : BtId) (t : ByteTree) (c : Cursor)
@[simp] theorem State.withByteTree_phase : (s.withByteTree d t c).phase = s.phase := rfl
@[simp] theorem State.withByteTree_status : (s.withByteTree d t c).status = s.status := rfl
@[simp] theorem State.withByteTree_cfg : (s.withByteTree d t c).cfg = s.cfg := rfl
@[simp] theorem State.withByteTree_wt : (s.withByteTree d t c).wt = s.wt := rfl
@[simp] theorem State.withByteTree_surf : (s.withByteTree d t c).surf = s.surf := rfl
@[simp] theorem State.withByteTree_dirty : (s.withByteTree d t c).dirty = s.dirty := rfl
@[simp] theorem State.withByteTree_scan : (s.withByteTree d t c).scan = s.scan := rfl
@[simp] theorem State.withByteTree_pal : (s.withByteTree d t c).pal = s.pal := rfl
@[simp] theorem State.withByteTree_palDirty : (s.withByteTree d t c).palDirty = s.palDirty := rfl
@[simp] theorem State.withByteTree_consumed : (s.withByteTree d t c).consumed = s.consumed := rfl
@[simp] theorem State.withByteTree_rect : (s.withByteTree d t c).rect = s.rect := rfl
@[simp] theorem State.withByteTree_out : (s.withByteTree d t c).out = s.out := rfl
@[simp] theorem State.withByteTree_outRate : (s.withByteTree d t c).outRate = s.outRate := rfl
@[simp] theorem State.withByteTree_port : (s.withByteTree d t c).port = s.port := rfl
@[simp] theorem State.withByteTree_resetPin : (s.withByteTree d t c).resetPin = s.resetPin := rfl
@[simp] theorem State.withByteTree_work : (s.withByteTree d t c).work =
    { s.work.setByteTree d t with cur := c } := rfl
@[simp] theorem State.withByteTree_expect : (s.withByteTree d t c).expect = s.expect := rfl
@[simp] theorem State.withByteTree_fails : (s.withByteTree d t c).fails = s.fails := rfl
end withByteTree

section withByteNode
variable (s : State) (d : BtId) (b : ByteTree × Cursor × Nat)
@[simp] theorem State.withByteNode_phase : (s.withByteNode d b).phase = s.phase := rfl
@[simp] theorem State.withByteNode_status : (s.withByteNode d b).status = s.status := rfl
@[simp] theorem State.withByteNode_cfg : (s.withByteNode d b).cfg = s.cfg := rfl
@[simp] theorem State.withByteNode_wt : (s.withByteNode d b).wt = s.wt := rfl
@[simp] theorem State.withByteNode_surf : (s.withByteNode d b).surf = s.surf := rfl
@[simp] theorem State.withByteNode_dirty : (s.withByteNode d b).dirty = s.dirty := rfl
@[simp] theorem State.withByteNode_scan : (s.withByteNode d b).scan = s.scan := rfl
@[simp] theorem State.withByteNode_pal : (s.withByteNode d b).pal = s.pal := rfl
@[simp] theorem State.withByteNode_palDirty : (s.withByteNode d b).palDirty = s.palDirty := rfl
@[simp] theorem State.withByteNode_consumed : (s.withByteNode d b).consumed = s.consumed := rfl
@[simp] theorem State.withByteNode_rect : (s.withByteNode d b).rect = s.rect := rfl
@[simp] theorem State.withByteNode_out : (s.withByteNode d b).out = s.out := rfl
@[simp] theorem State.withByteNode_outRate : (s.withByteNode d b).outRate = s.outRate := rfl
@[simp] theorem State.withByteNode_port : (s.withByteNode d b).port = s.port := rfl
@[simp] theorem State.withByteNode_resetPin : (s.withByteNode d b).resetPin = s.resetPin := rfl
@[simp] theorem State.withByteNode_work : (s.withByteNode d b).work =
    { s.work.setByteTree d b.1 with cur := b.2.1, count := b.2.2 } := rfl
@[simp] theorem State.withByteNode_expect : (s.withByteNode d b).expect = s.expect := rfl
@[simp] theorem State.withByteNode_fails : (s.withByteNode d b).fails = s.fails := rfl
end withByteNode

section withWordTree
variable (s : State) (k : TreeId) (w : WordTree) (c : Cursor)
@[simp] theorem State.withWordTree_phase : (s.withWordTree k w c).phase = s.phase := rfl
@[simp] theorem State.withWordTree_status : (s.withWordTree k w c).status = s.status := rfl
@[simp] theorem State.withWordTree_cfg : (s.withWordTree k w c).cfg = s.cfg := rfl
@[simp] theorem State.withWordTree_wt : (s.withWordTree k w c).wt = s.wt.set k w := rfl
@[simp] theorem State.withWordTree_surf : (s.withWordTree k w c).surf = s.surf := rfl
@[simp] theorem State.withWordTree_dirty : (s.withWordTree k w c).dirty = s.dirty := rfl
@[simp] theorem State.withWordTree_scan : (s.withWordTree k w c).scan = s.scan := rfl
@[simp] theorem State.withWordTree_pal : (s.withWordTree k w c).pal = s.pal := rfl
@[simp] theorem State.withWordTree_palDirty : (s.withWordTree k w c).palDirty = s.palDirty := rfl
@[simp] theorem State.withWordTree_consumed : (s.withWordTree k w c).consumed = s.consumed := rfl
@[simp] theorem State.withWordTree_rect : (s.withWordTree k w c).rect = s.rect := rfl
@[simp] theorem State.withWordTree_out : (s.withWordTree k w c).out = s.out := rfl
@[simp] theorem State.withWordTree_outRate : (s.withWordTree k w c).outRate = s.outRate := rfl
@[simp] theorem State.withWordTree_port : (s.withWordTree k w c).port = s.port := rfl
@[simp] theorem State.withWordTree_resetPin : (s.withWordTree k w c).resetPin = s.resetPin := rfl
@[simp] theorem State.withWordTree_work : (s.withWordTree k w c).work = { s.work with cur := c } := rfl
@[simp] theorem State.withWordTree_expect : (s.withWordTree k w c).expect = s.expect := rfl
@[simp] theorem State.withWordTree_fails : (s.withWordTree k w c).fails = s.fails := rfl
end withWordTree

section withWordNode
variable (s : State) (k : TreeId) (b : WordDraft × Cursor × Nat)
@[simp] theorem State.withWordNode_phase : (s.withWordNode k b).phase = s.phase := rfl
@[simp] theorem State.withWordNode_status : (s.withWordNode k b).status = s.status := rfl
@[simp] theorem State.withWordNode_cfg : (s.withWordNode k b).cfg = s.cfg := rfl
@[simp] theorem State.withWordNode_wt : (s.withWordNode k b).wt = s.wt.set k b.1.tree := rfl
@[simp] theorem State.withWordNode_surf : (s.withWordNode k b).surf = s.surf := rfl
@[simp] theorem State.withWordNode_dirty : (s.withWordNode k b).dirty = s.dirty := rfl
@[simp] theorem State.withWordNode_scan : (s.withWordNode k b).scan = s.scan := rfl
@[simp] theorem State.withWordNode_pal : (s.withWordNode k b).pal = s.pal := rfl
@[simp] theorem State.withWordNode_palDirty : (s.withWordNode k b).palDirty = s.palDirty := rfl
@[simp] theorem State.withWordNode_consumed : (s.withWordNode k b).consumed = s.consumed := rfl
@[simp] theorem State.withWordNode_rect : (s.withWordNode k b).rect = s.rect := rfl
@[simp] theorem State.withWordNode_out : (s.withWordNode k b).out = s.out := rfl
@[simp] theorem State.withWordNode_outRate : (s.withWordNode k b).outRate = s.outRate := rfl
@[simp] theorem State.withWordNode_port : (s.withWordNode k b).port = s.port := rfl
@[simp] theorem State.withWordNode_resetPin : (s.withWordNode k b).resetPin = s.resetPin := rfl
@[simp] theorem State.withWordNode_work : (s.withWordNode k b).work =
    { s.work with marked := b.1.marked, cur := b.2.1, count := b.2.2 } := rfl
@[simp] theorem State.withWordNode_expect : (s.withWordNode k b).expect = s.expect := rfl
@[simp] theorem State.withWordNode_fails : (s.withWordNode k b).fails = s.fails := rfl
end withWordNode

section withWordCode
variable (s : State) (k : TreeId) (g : Half × WordTree × Cursor)
@[simp] theorem State.withWordCode_phase : (s.withWordCode k g).phase = s.phase := rfl
@[simp] theorem State.withWordCode_status : (s.withWordCode k g).status = s.status := rfl
@[simp] theorem State.withWordCode_cfg : (s.withWordCode k g).cfg = s.cfg := rfl
@[simp] theorem State.withWordCode_wt : (s.withWordCode k g).wt = s.wt.set k g.2.1 := rfl
@[simp] theorem State.withWordCode_surf : (s.withWordCode k g).surf = s.surf := rfl
@[simp] theorem State.withWordCode_dirty : (s.withWordCode k g).dirty = s.dirty := rfl
@[simp] theorem State.withWordCode_scan : (s.withWordCode k g).scan = s.scan := rfl
@[simp] theorem State.withWordCode_pal : (s.withWordCode k g).pal = s.pal := rfl
@[simp] theorem State.withWordCode_palDirty : (s.withWordCode k g).palDirty = s.palDirty := rfl
@[simp] theorem State.withWordCode_consumed : (s.withWordCode k g).consumed = s.consumed := rfl
@[simp] theorem State.withWordCode_rect : (s.withWordCode k g).rect = s.rect := rfl
@[simp] theorem State.withWordCode_out : (s.withWordCode k g).out = s.out := rfl
@[simp] theorem State.withWordCode_outRate : (s.withWordCode k g).outRate = s.outRate := rfl
@[simp] theorem State.withWordCode_port : (s.withWordCode k g).port = s.port := rfl
@[simp] theorem State.withWordCode_resetPin : (s.withWordCode k g).resetPin = s.resetPin := rfl
@[simp] theorem State.withWordCode_work : (s.withWordCode k g).work =
    { s.work with cur := g.2.2, res := g.1 } := rfl
@[simp] theorem State.withWordCode_expect : (s.withWordCode k g).expect = s.expect := rfl
@[simp] theorem State.withWordCode_fails : (s.withWordCode k g).fails = s.fails := rfl
end withWordCode

section withFrame
variable (s : State) (f : FrameState) (n m : Nat)
@[simp] theorem State.withFrame_phase : (s.withFrame f n m).phase = s.phase := rfl
@[simp] theorem State.withFrame_status : (s.withFrame f n m).status = s.status := rfl
@[simp] theorem State.withFrame_cfg : (s.withFrame f n m).cfg = s.cfg := rfl
@[simp] theorem State.withFrame_wt : (s.withFrame f n m).wt = f.wt := rfl
@[simp] theorem State.withFrame_surf : (s.withFrame f n m).surf = f.surf := rfl
@[simp] theorem State.withFrame_dirty : (s.withFrame f n m).dirty = f.dirty := rfl
@[simp] theorem State.withFrame_scan : (s.withFrame f n m).scan = s.scan := rfl
@[simp] theorem State.withFrame_pal : (s.withFrame f n m).pal = s.pal := rfl
@[simp] theorem State.withFrame_palDirty : (s.withFrame f n m).palDirty = s.palDirty := rfl
@[simp] theorem State.withFrame_consumed : (s.withFrame f n m).consumed = s.consumed := rfl
@[simp] theorem State.withFrame_rect : (s.withFrame f n m).rect = s.rect := rfl
@[simp] theorem State.withFrame_out : (s.withFrame f n m).out = s.out := rfl
@[simp] theorem State.withFrame_outRate : (s.withFrame f n m).outRate = s.outRate := rfl
@[simp] theorem State.withFrame_port : (s.withFrame f n m).port = s.port := rfl
@[simp] theorem State.withFrame_resetPin : (s.withFrame f n m).resetPin = s.resetPin := rfl
@[simp] theorem State.withFrame_work : (s.withFrame f n m).work =
    { s.work with cur := f.cur, blk := f.blk, run := n, mode := m } := rfl
@[simp] theorem State.withFrame_expect : (s.withFrame f n m).expect = s.expect := rfl
@[simp] theorem State.withFrame_fails : (s.withFrame f n m).fails = s.fails := rfl
end withFrame

section withPal
variable (s : State) (p : PalState)
@[simp] theorem State.withPal_phase : (s.withPal p).phase = s.phase := rfl
@[simp] theorem State.withPal_status : (s.withPal p).status = s.status := rfl
@[simp] theorem State.withPal_cfg : (s.withPal p).cfg = s.cfg := rfl
@[simp] theorem State.withPal_wt : (s.withPal p).wt = s.wt := rfl
@[simp] theorem State.withPal_surf : (s.withPal p).surf = s.surf := rfl
@[simp] theorem State.withPal_dirty : (s.withPal p).dirty = s.dirty := rfl
@[simp] theorem State.withPal_scan : (s.withPal p).scan = s.scan := rfl
@[simp] theorem State.withPal_pal : (s.withPal p).pal = p.pal := rfl
@[simp] theorem State.withPal_palDirty : (s.withPal p).palDirty = s.palDirty := rfl
@[simp] theorem State.withPal_consumed : (s.withPal p).consumed = s.consumed := rfl
@[simp] theorem State.withPal_rect : (s.withPal p).rect = s.rect := rfl
@[simp] theorem State.withPal_out : (s.withPal p).out = s.out := rfl
@[simp] theorem State.withPal_outRate : (s.withPal p).outRate = s.outRate := rfl
@[simp] theorem State.withPal_port : (s.withPal p).port = s.port := rfl
@[simp] theorem State.withPal_resetPin : (s.withPal p).resetPin = s.resetPin := rfl
@[simp] theorem State.withPal_work : (s.withPal p).work =
    { s.work with palPos := p.pos, palEntry := p.entry } := rfl
@[simp] theorem State.withPal_expect : (s.withPal p).expect = s.expect := rfl
@[simp] theorem State.withPal_fails : (s.withPal p).fails = s.fails := rfl
end withPal

section deliver
variable (s : State) (info : Word) (l : List Sample)
@[simp] theorem State.deliver_phase : (s.deliver info l).phase = s.phase := rfl
@[simp] theorem State.deliver_status : (s.deliver info l).status = Status.of .none := rfl
@[simp] theorem State.deliver_cfg : (s.deliver info l).cfg = s.cfg := rfl
@[simp] theorem State.deliver_wt : (s.deliver info l).wt = s.wt := rfl
@[simp] theorem State.deliver_surf : (s.deliver info l).surf = s.surf := rfl
@[simp] theorem State.deliver_dirty : (s.deliver info l).dirty = s.dirty := rfl
@[simp] theorem State.deliver_scan : (s.deliver info l).scan = s.scan := rfl
@[simp] theorem State.deliver_pal : (s.deliver info l).pal = s.pal := rfl
@[simp] theorem State.deliver_palDirty : (s.deliver info l).palDirty = s.palDirty := rfl
@[simp] theorem State.deliver_consumed : (s.deliver info l).consumed = s.consumed := rfl
@[simp] theorem State.deliver_rect : (s.deliver info l).rect = s.rect := rfl
@[simp] theorem State.deliver_out : (s.deliver info l).out = l := rfl
@[simp] theorem State.deliver_outRate : (s.deliver info l).outRate = infoRate info := rfl
@[simp] theorem State.deliver_port : (s.deliver info l).port = none := rfl
@[simp] theorem State.deliver_resetPin : (s.deliver info l).resetPin = s.resetPin := rfl
@[simp] theorem State.deliver_work : (s.deliver info l).work = Work.idle := rfl
@[simp] theorem State.deliver_expect : (s.deliver info l).expect = s.expect := rfl
@[simp] theorem State.deliver_fails : (s.deliver info l).fails = s.fails := rfl
end deliver

section deliverNothing
variable (s : State)
@[simp] theorem State.deliverNothing_phase : (s.deliverNothing).phase = s.phase := rfl
@[simp] theorem State.deliverNothing_status : (s.deliverNothing).status = Status.of .none := rfl
@[simp] theorem State.deliverNothing_cfg : (s.deliverNothing).cfg = s.cfg := rfl
@[simp] theorem State.deliverNothing_wt : (s.deliverNothing).wt = s.wt := rfl
@[simp] theorem State.deliverNothing_surf : (s.deliverNothing).surf = s.surf := rfl
@[simp] theorem State.deliverNothing_dirty : (s.deliverNothing).dirty = s.dirty := rfl
@[simp] theorem State.deliverNothing_scan : (s.deliverNothing).scan = s.scan := rfl
@[simp] theorem State.deliverNothing_pal : (s.deliverNothing).pal = s.pal := rfl
@[simp] theorem State.deliverNothing_palDirty : (s.deliverNothing).palDirty = s.palDirty := rfl
@[simp] theorem State.deliverNothing_consumed : (s.deliverNothing).consumed = s.consumed := rfl
@[simp] theorem State.deliverNothing_rect : (s.deliverNothing).rect = s.rect := rfl
@[simp] theorem State.deliverNothing_out : (s.deliverNothing).out = [] := rfl
@[simp] theorem State.deliverNothing_outRate : (s.deliverNothing).outRate = s.outRate := rfl
@[simp] theorem State.deliverNothing_port : (s.deliverNothing).port = none := rfl
@[simp] theorem State.deliverNothing_resetPin : (s.deliverNothing).resetPin = s.resetPin := rfl
@[simp] theorem State.deliverNothing_work : (s.deliverNothing).work = Work.idle := rfl
@[simp] theorem State.deliverNothing_expect : (s.deliverNothing).expect = s.expect := rfl
@[simp] theorem State.deliverNothing_fails : (s.deliverNothing).fails = s.fails := rfl
end deliverNothing

section configure
variable (s : State) (ops : ConfigOps) (sv : SubVer)
@[simp] theorem State.configure_phase : (s.configure ops sv).phase = .configured := rfl
@[simp] theorem State.configure_status : (s.configure ops sv).status = Status.of .none := rfl
@[simp] theorem State.configure_cfg : (s.configure ops sv).cfg = cfgOf ops sv := rfl
@[simp] theorem State.configure_wt : (s.configure ops sv).wt =
    s.wt.map fun _ w => { w with built := false } := rfl
@[simp] theorem State.configure_surf : (s.configure ops sv).surf = Memory.blank .init := rfl
@[simp] theorem State.configure_dirty : (s.configure ops sv).dirty = [] := rfl
@[simp] theorem State.configure_scan : (s.configure ops sv).scan = 0 := rfl
@[simp] theorem State.configure_pal : (s.configure ops sv).pal = Memory.blank .init := rfl
@[simp] theorem State.configure_palDirty : (s.configure ops sv).palDirty = false := rfl
@[simp] theorem State.configure_consumed : (s.configure ops sv).consumed = s.consumed := rfl
@[simp] theorem State.configure_rect : (s.configure ops sv).rect = s.rect := rfl
@[simp] theorem State.configure_out : (s.configure ops sv).out = s.out := rfl
@[simp] theorem State.configure_outRate : (s.configure ops sv).outRate = s.outRate := rfl
@[simp] theorem State.configure_port : (s.configure ops sv).port = none := rfl
@[simp] theorem State.configure_resetPin : (s.configure ops sv).resetPin = s.resetPin := rfl
@[simp] theorem State.configure_work : (s.configure ops sv).work = Work.idle := rfl
@[simp] theorem State.configure_expect : (s.configure ops sv).expect = s.expect := rfl
@[simp] theorem State.configure_fails : (s.configure ops sv).fails = s.fails := rfl
end configure

@[simp] theorem Trees.get_set_same (t : Trees) (k : TreeId) (w : WordTree) : (t.set k w).get k = w := by
  cases k <;> rfl

@[simp] theorem Trees.get_set_other (t : Trees) {k l : TreeId} (w : WordTree) (h : l ≠ k) :
    (t.set k w).get l = t.get l := by
  cases k <;> cases l <;> first | rfl | exact absurd rfl h

@[simp] theorem Trees.get_map (f : TreeId → WordTree → WordTree) (t : Trees) (k : TreeId) :
    (t.map f).get k = f k (t.get k) := by
  cases k <;> rfl

/-- Trees with the same four trees are the same. -/
theorem Trees.ext_get {t u : Trees} (h : ∀ k, t.get k = u.get k) : t = u := by
  cases t; cases u
  simpa [Trees.get] using And.intro (h .mmap) (And.intro (h .mclr) (And.intro (h .full) (h .typ)))

@[simp] theorem Work.byteTree_setByteTree_same (w : Work) (d : BtId) (t : ByteTree) :
    (w.setByteTree d t).byteTree d = t := by
  cases d <;> rfl

@[simp] theorem Work.byteTree_setByteTree_other (w : Work) {d e : BtId} (t : ByteTree) (h : e ≠ d) :
    (w.setByteTree d t).byteTree e = w.byteTree e := by
  cases d <;> cases e <;> first | rfl | exact absurd rfl h

@[simp] theorem Work.setByteTree_cur (w : Work) (d : BtId) (t : ByteTree) : (w.setByteTree d t).cur = w.cur := by
  cases d <;> rfl

@[simp] theorem Tri.get_set_same {α : Type} (t : Tri α) (v : α) (j : Fin 3) : (t.set v j).get j = v := by
  fin_cases j <;> rfl

@[simp] theorem Tri.get_set_other {α : Type} (t : Tri α) (v : α) {j l : Fin 3} (h : l ≠ j) :
    (t.set v j).get l = t.get l := by
  fin_cases j <;> fin_cases l <;> first | rfl | exact absurd rfl h

end Sys2Proof.Machine
end

