-- ==== Sys2Proof/Laws/Ops.lean ====
section
/-! SUPPORT. What the shared operations can do, said once: the storage spaces, the DIRTY list, and the ends
of a command. -/

namespace Sys2Proof.Machine

/-! ### Storage spaces -/

section Memory

variable {α : Type}

theorem findCell_putCell_same (a : Nat) (v : α) (cells : List (Nat × α)) :
    findCell a (putCell a v cells) = some v := by
  induction cells with
  | nil => simp [putCell, findCell]
  | cons p rest ih =>
    obtain ⟨b, x⟩ := p
    simp only [putCell]
    split
    · simp [findCell]
    · split
      · simp [findCell]
      · next h => simp [findCell, h, ih]

theorem findCell_putCell_other {a b : Nat} (h : b ≠ a) (v : α) (cells : List (Nat × α)) :
    findCell b (putCell a v cells) = findCell b cells := by
  induction cells with
  | nil => simp [putCell, findCell, h]
  | cons p rest ih =>
    obtain ⟨c, x⟩ := p
    simp only [putCell]
    split
    · simp [findCell, h]
    · split
      · next hac => subst hac; simp [findCell, h]
      · simp [findCell, ih]

/-- A read after a write to the same index gives the value written. -/
@[simp] theorem Memory.read_write_same (u : Base → Nat → α) (m : Memory α) (a : Nat) (v : α) :
    (m.write a v).read u a = v := by
  simp [Memory.read, Memory.write, findCell_putCell_same]

/-- A write leaves every other index as it was. -/
theorem Memory.read_write_other (u : Base → Nat → α) (m : Memory α) {a b : Nat} (h : b ≠ a) (v : α) :
    (m.write a v).read u b = m.read u b := by
  simp [Memory.read, Memory.write, findCell_putCell_other h]

theorem mem_putCell {a : Nat} {v : α} {cells : List (Nat × α)} {p : Nat × α}
    (h : p ∈ putCell a v cells) : p.1 = a ∨ p ∈ cells := by
  induction cells with
  | nil => simp [putCell] at h; exact .inl (by rw [h])
  | cons q rest ih =>
    obtain ⟨b, x⟩ := q
    simp only [putCell] at h
    split at h
    · rcases List.mem_cons.1 h with h | h
      · exact .inl (by rw [h])
      · exact .inr h
    · split at h
      · rcases List.mem_cons.1 h with h | h
        · exact .inl (by rw [h])
        · exact .inr (List.mem_cons_of_mem _ h)
      · rcases List.mem_cons.1 h with h | h
        · exact .inr (by simp [h])
        · exact (ih h).imp id (List.mem_cons_of_mem _)

theorem putCell_rising (a : Nat) (v : α) {cells : List (Nat × α)}
    (h : cells.Pairwise (fun p q => p.1 < q.1)) :
    (putCell a v cells).Pairwise (fun p q => p.1 < q.1) := by
  induction cells with
  | nil => simp [putCell]
  | cons p rest ih =>
    obtain ⟨b, x⟩ := p
    obtain ⟨hb, hr⟩ := List.pairwise_cons.1 h
    simp only [putCell]
    split
    · next hab =>
      refine List.pairwise_cons.2 ⟨fun q hq => ?_, h⟩
      rcases List.mem_cons.1 hq with rfl | hq
      · exact hab
      · exact lt_trans hab (hb q hq)
    · split
      · next hab => subst hab; exact List.pairwise_cons.2 ⟨hb, hr⟩
      · next hlt hne =>
        refine List.pairwise_cons.2 ⟨fun q hq => ?_, ih hr⟩
        rcases mem_putCell hq with hqa | hq
        · rw [hqa]; change b < a; omega
        · exact hb q hq

/-- A write keeps the canonical form. -/
theorem Memory.write_wf {m : Memory α} (h : m.wf) (a : Nat) (v : α) : (m.write a v).wf :=
  putCell_rising a v h

theorem Memory.blank_wf (b : Base) : (Memory.blank b : Memory α).wf := List.Pairwise.nil

@[simp] theorem Memory.write_base (m : Memory α) (a : Nat) (v : α) : (m.write a v).base = m.base := rfl

/-- The indices a write lists are the one written and those listed before. -/
theorem Memory.mem_write {m : Memory α} {a : Nat} {v : α} {p : Nat × α} (h : p ∈ (m.write a v).cells) :
    p.1 = a ∨ p ∈ m.cells := mem_putCell h

end Memory

theorem reset_surf_wf : State.reset.surf.wf := Memory.blank_wf _

theorem reset_pal_wf : State.reset.pal.wf := Memory.blank_wf _

theorem surfWrite_wf {surf : Memory Byte} (h : surf.wf) (g : Cfg) (x y : Nat) (v : Byte) :
    (surfWrite g x y v surf).wf := Memory.write_wf h _ _

theorem copyEntries_wf (old : Memory Rgb) (src e n : Nat) {pal : Memory Rgb} (h : pal.wf) :
    (copyEntries old src e n pal).wf := by
  induction n with
  | zero => exact h
  | succ n ih => exact Memory.write_wf ih _ _

/-! ### The DIRTY list -/

@[simp] theorem mem_markDirty {a b : Nat} {dirty : List Nat} : a ∈ markDirty b dirty ↔ a = b ∨ a ∈ dirty := by
  induction dirty with
  | nil => simp [markDirty]
  | cons d rest ih =>
    simp only [markDirty]
    split
    · simp
    · split
      · next h => subst h; simp
      · simp [ih]; tauto

theorem markDirty_rising (b : Nat) {dirty : List Nat} (h : dirty.Pairwise (· < ·)) :
    (markDirty b dirty).Pairwise (· < ·) := by
  induction dirty with
  | nil => simp [markDirty]
  | cons d rest ih =>
    obtain ⟨hd, hr⟩ := List.pairwise_cons.1 h
    simp only [markDirty]
    split
    · next hbd =>
      refine List.pairwise_cons.2 ⟨fun x hx => ?_, h⟩
      rcases List.mem_cons.1 hx with rfl | hx
      · exact hbd
      · exact lt_trans hbd (hd x hx)
    · split
      · exact h
      · next hlt hne =>
        refine List.pairwise_cons.2 ⟨fun x hx => ?_, ih hr⟩
        rcases mem_markDirty.1 hx with rfl | hx
        · omega
        · exact hd x hx

@[simp] theorem mem_clearDirty {a : Nat} {inside : Nat → Bool} {dirty : List Nat} :
    a ∈ clearDirty inside dirty ↔ a ∈ dirty ∧ inside a = false := by
  simp [clearDirty]

theorem clearDirty_rising (inside : Nat → Bool) {dirty : List Nat} (h : dirty.Pairwise (· < ·)) :
    (clearDirty inside dirty).Pairwise (· < ·) := h.filter _

@[simp] theorem isDirty_iff {dirty : List Nat} {b : Nat} : isDirty dirty b = true ↔ b ∈ dirty := by
  simp [isDirty]

/-! ### The ends of a command -/

/-- A raise of a fatal class: STATUS, the idle port, and what a fatal error leaves. -/
theorem State.raise_fatal (s : State) {cause : Cause} (h : cause.code.fatal = true) :
    s.raise cause = State.failWith { s.report cause with work := Work.idle } (s.fails + 1) := by
  simp [State.raise, h]

/-- A raise of a class that is not fatal changes STATUS and empties the port. -/
theorem State.raise_soft (s : State) {cause : Cause} (h : cause.code.fatal = false) :
    s.raise cause = s.report cause := by
  simp [State.raise, h]

@[simp] theorem State.raise_status (s : State) (cause : Cause) : (s.raise cause).status = Status.of cause := by
  unfold State.raise; split <;> rfl

@[simp] theorem State.raise_port (s : State) (cause : Cause) : (s.raise cause).port = none := by
  unfold State.raise; split <;> rfl

@[simp] theorem State.raise_cfg (s : State) (cause : Cause) : (s.raise cause).cfg = s.cfg := by
  unfold State.raise; split <;> rfl

@[simp] theorem State.raise_consumed (s : State) (cause : Cause) : (s.raise cause).consumed = s.consumed := by
  unfold State.raise; split <;> rfl

@[simp] theorem State.raise_rect (s : State) (cause : Cause) : (s.raise cause).rect = s.rect := by
  unfold State.raise; split <;> rfl

@[simp] theorem State.raise_out (s : State) (cause : Cause) : (s.raise cause).out = s.out := by
  unfold State.raise; split <;> rfl

@[simp] theorem State.raise_expect (s : State) (cause : Cause) : (s.raise cause).expect = s.expect := by
  unfold State.raise; split <;> rfl

/-- What a computation that may raise leads to. -/
theorem State.orRaise_cases {α : Type} (s : State) (r : Except Cause α) (k : α → State) :
    (∃ v, r = .ok v ∧ s.orRaise r k = k v) ∨ (∃ c, r = .error c ∧ s.orRaise r k = s.raise c) := by
  cases r with
  | ok v => exact .inl ⟨v, rfl, rfl⟩
  | error c => exact .inr ⟨c, rfl, rfl⟩

@[simp] theorem State.orRaise_ok {α : Type} (s : State) (v : α) (k : α → State) : s.orRaise (.ok v) k = k v := rfl

@[simp] theorem State.orRaise_error {α : Type} (s : State) (c : Cause) (k : α → State) :
    s.orRaise (.error c) k = s.raise c := rfl

@[simp] theorem State.whenAdmitted_true (s run : State) : s.whenAdmitted true run = run := rfl

@[simp] theorem State.whenAdmitted_false (s run : State) : s.whenAdmitted false run = s.report .wrongPhase := rfl

/-- From a bind that succeeds, both parts succeed. -/
theorem bind_ok {ε α β : Type} {x : Except ε α} {f : α → Except ε β} {b : β} (h : (x >>= f) = .ok b) :
    ∃ a, x = .ok a ∧ f a = .ok b := by
  cases x with
  | ok a => exact ⟨a, rfl, h⟩
  | error e => cases h

/-- From a bind that raises, one of the parts raises. -/
theorem bind_error {ε α β : Type} {x : Except ε α} {f : α → Except ε β} {e : ε} (h : (x >>= f) = .error e) :
    x = .error e ∨ ∃ a, x = .ok a ∧ f a = .error e := by
  cases x with
  | ok a => exact .inr ⟨a, rfl, h⟩
  | error e' => exact .inl (by cases h; rfl)

/-- An append under a capacity. -/
theorem appendCell_cases {w : Nat} (cap : Nat) (full : Cause) (nodes : List (Node w)) (cell : Node w) :
    (nodes.length < cap ∧ appendCell cap full nodes cell = .ok (nodes ++ [cell])) ∨
    (cap ≤ nodes.length ∧ appendCell cap full nodes cell = .error full) := by
  unfold appendCell
  split
  · next h => exact .inr ⟨h, rfl⟩
  · next h => exact .inl ⟨by omega, rfl⟩

/-- No meaning stops: every instruction answers a next state. -/
theorem exec_next (i : Instr) (s : State) : ∃ t, exec i s = .next t := by
  cases i <;> exact ⟨_, rfl⟩

/-- What a step can do. -/
theorem step_cases {s t : State} (h : step s = .next t) :
    (s.resetPin = true ∧ t = s.afterReset) ∨
    (s.resetPin = false ∧ s.fetch = .idle ∧ t = s) ∨
    (s.resetPin = false ∧ ∃ cause, s.fetch = .ended cause ∧ t = s.taken.raise cause) ∨
    (s.resetPin = false ∧ ∃ e i, s.fetch = .found e ∧ decode e = .ok i ∧ i.wf = true ∧
      exec i s.taken = .next t) := by
  unfold step at h
  split at h
  · next hr => exact .inl ⟨hr, by cases h; rfl⟩
  · next hr =>
    have hr : s.resetPin = false := by simpa using hr
    split at h
    · next hf => exact .inr (.inl ⟨hr, hf, by cases h; rfl⟩)
    · next e hf =>
      unfold execEncoded at h
      split at h
      · next i hi =>
        unfold execWellFormed at h
        split at h
        · next hw => exact .inr (.inr (.inr ⟨hr, e, i, hf, hi, hw, h⟩))
        · cases h
      · cases h
    · next cause hf => exact .inr (.inr (.inl ⟨hr, cause, hf, by cases h; rfl⟩))

end Sys2Proof.Machine
end

