-- ==== Sys2Proof/Laws/Cursor.lean ====
section
/-! SUPPORT. The bit cursor's laws: its fields after each operation, and the bits of what it reads. -/

namespace Sys2Proof.Machine

@[simp] theorem Cursor.skip_buf (c : Cursor) (n : Nat) : (c.skip n).buf = c.buf := rfl
@[simp] theorem Cursor.skip_pos (c : Cursor) (n : Nat) : (c.skip n).pos = c.pos + n := rfl
@[simp] theorem Cursor.skip_len (c : Cursor) (n : Nat) : (c.skip n).len = c.len := rfl
@[simp] theorem Cursor.skip_bit (c : Cursor) (n i : Nat) : (c.skip n).bit i = c.bit i := rfl
@[simp] theorem Cursor.skip_ovr (c : Cursor) (n : Nat) :
    (c.skip n).ovr = (c.ovr || decide (8 * c.len < c.pos + n)) := rfl
@[simp] theorem Cursor.readBit_value (c : Cursor) : c.readBit.1 = c.bit c.pos := rfl
@[simp] theorem Cursor.readBit_cursor (c : Cursor) : c.readBit.2 = c.skip 1 := rfl
@[simp] theorem Cursor.readBits_cursor (c : Cursor) (n : Nat) : (c.readBits n).2 = c.skip n := rfl
@[simp] theorem Cursor.readByte_cursor (c : Cursor) : c.readByte.2 = c.skip 8 := rfl
@[simp] theorem Cursor.readHalf_cursor (c : Cursor) : c.readHalf.2 = c.skip 16 := rfl

/-- Two advances are one: OVR is sticky and POS only grows. -/
theorem Cursor.skip_skip (c : Cursor) (m n : Nat) : (c.skip m).skip n = c.skip (m + n) := by
  have h : (decide (8 * c.len < c.pos + m) || decide (8 * c.len < c.pos + m + n)) =
      decide (8 * c.len < c.pos + (m + n)) := by
    rw [Bool.eq_iff_iff]; simp; omega
  simp only [Cursor.skip, Cursor.overrun, Cursor.len] at *
  simp [Bool.or_assoc, ← h, Nat.add_assoc]

/-- No bit is set past the end of the buffer. -/
theorem Cursor.bit_past_end (c : Cursor) {i : Nat} (h : 8 * c.len ≤ i) : c.bit i = false := by
  simp [Cursor.bit, Nat.not_lt.2 h]

/-- A field of no bits is 0. -/
@[simp] theorem Cursor.field_zero (c : Cursor) (p : Nat) : c.field p 0 = 0 := rfl

/-- The bits of a field are the stream's, bit 0 first. -/
theorem Cursor.field_testBit (c : Cursor) (n : Nat) :
    ∀ p k, (c.field p n).testBit k = (decide (k < n) && c.bit (p + k)) := by
  induction n with
  | zero => intro p k; simp [Cursor.field]
  | succ n ih =>
    intro p k
    cases k with
    | zero =>
      rw [Cursor.field, Nat.testBit_zero]
      cases c.bit p <;> simp [Nat.add_mod]
    | succ k =>
      rw [Cursor.field, Nat.testBit_succ]
      have hd : ((c.bit p).toNat + 2 * c.field (p + 1) n) / 2 = c.field (p + 1) n := by
        cases c.bit p
        · simp
        · simp; omega
      rw [hd, ih, show p + 1 + k = p + (k + 1) by omega]
      simp

/-- A field of `n` bits is below 2^n. -/
theorem Cursor.field_lt (c : Cursor) (p n : Nat) : c.field p n < 2 ^ n := by
  apply Nat.lt_pow_two_of_testBit
  intro i hi
  rw [Cursor.field_testBit]
  simp [Nat.not_lt.2 hi]

@[simp] theorem Cursor.skip_field (c : Cursor) (m n : Nat) : ∀ p, (c.skip m).field p n = c.field p n := by
  induction n with
  | zero => intro p; rfl
  | succ n ih => intro p; simp [Cursor.field, ih]

/-- A pattern splits where its lists do. -/
theorem Cursor.shows_append (c : Cursor) (p : Nat) (a b : Pattern) :
    c.shows p (a ++ b) ↔ c.shows p a ∧ c.shows (p + a.length) b := by
  constructor
  · intro h
    refine ⟨fun k v hk => h k v ?_, fun k v hk => ?_⟩
    · rw [List.getElem?_append_left]
      · exact hk
      · by_contra hlt
        rw [List.getElem?_eq_none (by omega)] at hk
        cases hk
    · rw [Nat.add_assoc]
      refine h (a.length + k) v ?_
      rw [List.getElem?_append_right (by omega)]
      simpa using hk
  · rintro ⟨ha, hb⟩ k v hk
    by_cases hlt : k < a.length
    · rw [List.getElem?_append_left hlt] at hk
      exact ha k v hk
    · rw [List.getElem?_append_right (by omega)] at hk
      have := hb (k - a.length) v hk
      rwa [show p + a.length + (k - a.length) = p + k by omega] at this

/-- A pattern that starts with a bit of fixed value. -/
theorem Cursor.shows_cons (c : Cursor) (p : Nat) (b : Bool) (rest : Pattern) :
    c.shows p (some b :: rest) ↔ c.bit p = b ∧ c.shows (p + 1) rest := by
  have h := c.shows_append p [some b] rest
  simp only [List.singleton_append, List.length_singleton] at h
  rw [h]
  refine and_congr_left fun _ => ⟨fun h => by simpa using h 0 b rfl, fun h k v hk => ?_⟩
  cases k with
  | zero => simp at hk; rw [Nat.add_zero, h, hk]
  | succ k => simp at hk

/-- A pattern, checked place by place. -/
theorem Cursor.shows_of_all (c : Cursor) (p : Nat) (pat : Pattern)
    (h : ∀ k, k < pat.length → ∀ b, pat.getD k none = some b → c.bit (p + k) = b) : c.shows p pat := by
  intro k b hk
  have hlt : k < pat.length := by
    by_contra hge
    rw [List.getElem?_eq_none (by omega)] at hk
    cases hk
  exact h k hlt b (by rw [List.getD_eq_getElem?_getD, hk]; rfl)

/-! ### The tree cells -/

/-- The prefix table after a fill, entry by entry. -/
theorem fillPfxFrom_getElem? (code len i : Nat) (pfx : List PfxEntry) :
    ∀ k j : Nat, (fillPfxFrom code len i k pfx)[j]? =
      pfx[j]?.map fun e => if (k + j) % 2 ^ len = code then { node := i, len := len } else e := by
  induction pfx with
  | nil => intro k j; simp [fillPfxFrom]
  | cons e rest ih =>
    intro k j
    cases j with
    | zero => simp [fillPfxFrom]
    | succ j => simp [fillPfxFrom, ih, show k + 1 + j = k + (j + 1) by omega]

@[simp] theorem fillPfxFrom_length (code len i : Nat) (pfx : List PfxEntry) :
    ∀ k, (fillPfxFrom code len i k pfx).length = pfx.length := by
  induction pfx with
  | nil => intro k; rfl
  | cons e rest ih => intro k; simp [fillPfxFrom, ih]

@[simp] theorem fillPfx_length (code len i : Nat) (pfx : List PfxEntry) :
    (fillPfx code len i pfx).length = pfx.length := by
  unfold fillPfx; split <;> simp

/-- A walk that starts at a leaf ends there. -/
theorem walkFrom_leaf {w : Nat} {nodes : List (Node w)} {p : Nat} {v : BitVec w} (fuel : Nat) (c : Cursor)
    (h : nodeAt nodes p = .leaf v) : walkFrom fuel nodes c p = (p, c) := by
  cases fuel <;> simp [walkFrom, h]

/-- A walk at an internal node takes one bit. -/
theorem walkFrom_internal {w : Nat} {nodes : List (Node w)} {p r : Nat} (fuel : Nat) (c : Cursor)
    (h : nodeAt nodes p = .internal r) :
    walkFrom (fuel + 1) nodes c p = walkFrom fuel nodes (c.skip 1) (p + 1 + if c.bit c.pos then r else 0) := by
  rw [walkFrom, h]; rfl

end Sys2Proof.Machine
end

