-- ==== Sys2Proof/Laws/PerInstr.lean ====
section
/-! SUPPORT. Facts about every instruction as syntax, one lemma per constructor of Instr. -/

namespace Sys2Proof.Laws.Placed

/-- The host commands are exactly the instructions whose encoding stands at the command port
(30_encoding.md R90, R91). -/
def Statement (i : Instr) : Prop :=
  Machine.isCommand i = true ↔ ∃ c, encode i = some (.command c)

theorem configure : ∀ a, Statement (.configure a) := fun _ => iff_of_true rfl ⟨_, rfl⟩

theorem buildTrees : ∀ a, Statement (.buildTrees a) := fun _ => iff_of_true rfl ⟨_, rfl⟩

theorem decodeFrame : ∀ a, Statement (.decodeFrame a) := fun _ => iff_of_true rfl ⟨_, rfl⟩

theorem unpackPalette : ∀ a, Statement (.unpackPalette a) := fun _ => iff_of_true rfl ⟨_, rfl⟩

theorem decodeAudio : ∀ a b c, Statement (.decodeAudio a b c) := fun _ _ _ => iff_of_true rfl ⟨_, rfl⟩

theorem getDirtyRect : Statement .getDirtyRect := iff_of_true rfl ⟨_, rfl⟩

theorem ackPalette : Statement .ackPalette := iff_of_true rfl ⟨_, rfl⟩

theorem reservedCmd : ∀ a, Statement (.reservedCmd a) := fun _ => iff_of_true rfl ⟨_, rfl⟩

theorem blkMono : ∀ a b, Statement (.blkMono a b) := fun _ _ => iff_of_false Bool.false_ne_true (by simp [encode])

theorem blkFull : ∀ a b, Statement (.blkFull a b) := fun _ _ => iff_of_false Bool.false_ne_true (by simp [encode])

theorem blkSkip : ∀ a b, Statement (.blkSkip a b) := fun _ _ => iff_of_false Bool.false_ne_true (by simp [encode])

theorem blkFill : ∀ a b, Statement (.blkFill a b) := fun _ _ => iff_of_false Bool.false_ne_true (by simp [encode])

theorem fullV2 : Statement .fullV2 := iff_of_false Bool.false_ne_true (by simp [encode])

theorem fullV4M1 : Statement .fullV4M1 := iff_of_false Bool.false_ne_true (by simp [encode])

theorem fullV4M2 : Statement .fullV4M2 := iff_of_false Bool.false_ne_true (by simp [encode])

theorem fullV4M0 : Statement .fullV4M0 := iff_of_false Bool.false_ne_true (by simp [encode])

theorem palSkip : ∀ a, Statement (.palSkip a) := fun _ => iff_of_false Bool.false_ne_true (by simp [encode])

theorem palCopy : ∀ a, Statement (.palCopy a) := fun _ => iff_of_false Bool.false_ne_true (by simp [encode])

theorem palLit : ∀ a, Statement (.palLit a) := fun _ => iff_of_false Bool.false_ne_true (by simp [encode])

theorem btEmpty : ∀ a, Statement (.btEmpty a) := fun _ => iff_of_false Bool.false_ne_true (by simp [encode])

theorem btPresent : ∀ a, Statement (.btPresent a) := fun _ => iff_of_false Bool.false_ne_true (by simp [encode])

theorem bnodeLeaf : ∀ a, Statement (.bnodeLeaf a) := fun _ => iff_of_false Bool.false_ne_true (by simp [encode])

theorem bnodeInternal : ∀ a, Statement (.bnodeInternal a) := fun _ => iff_of_false Bool.false_ne_true (by simp [encode])

theorem wtEmpty : ∀ a, Statement (.wtEmpty a) := fun _ => iff_of_false Bool.false_ne_true (by simp [encode])

theorem wtPresent : ∀ a, Statement (.wtPresent a) := fun _ => iff_of_false Bool.false_ne_true (by simp [encode])

theorem wnodeLeaf : ∀ a, Statement (.wnodeLeaf a) := fun _ => iff_of_false Bool.false_ne_true (by simp [encode])

theorem wnodeInternal : ∀ a, Statement (.wnodeInternal a) := fun _ => iff_of_false Bool.false_ne_true (by simp [encode])

theorem audAbsent : Statement .audAbsent := iff_of_false Bool.false_ne_true (by simp [encode])

theorem audPresent : Statement .audPresent := iff_of_false Bool.false_ne_true (by simp [encode])

theorem readBit : Statement .readBit := iff_of_false Bool.false_ne_true (by simp [encode])

theorem readBits : ∀ a, Statement (.readBits a) := fun _ => iff_of_false Bool.false_ne_true (by simp [encode])

theorem peek8 : Statement .peek8 := iff_of_false Bool.false_ne_true (by simp [encode])

theorem skip : ∀ a, Statement (.skip a) := fun _ => iff_of_false Bool.false_ne_true (by simp [encode])

theorem byteBuild : ∀ a, Statement (.byteBuild a) := fun _ => iff_of_false Bool.false_ne_true (by simp [encode])

theorem byteGetcode : ∀ a, Statement (.byteGetcode a) := fun _ => iff_of_false Bool.false_ne_true (by simp [encode])

theorem wordBuild : ∀ a, Statement (.wordBuild a) := fun _ => iff_of_false Bool.false_ne_true (by simp [encode])

theorem wordGetcode : ∀ a, Statement (.wordGetcode a) := fun _ => iff_of_false Bool.false_ne_true (by simp [encode])

theorem wordReset : ∀ a, Statement (.wordReset a) := fun _ => iff_of_false Bool.false_ne_true (by simp [encode])

end Sys2Proof.Laws.Placed
end

