-- ==== Sys2Proof/Tests/Slice0.lean ====
section
/-! SUPPORT. Tests. Expected results are the vectors of 95_test_vectors.md and the examples of the rules
named; the encodings are written out from 30_encoding.md. -/

namespace Sys2Proof.Tests

set_option Elab.async false

open Sys2Proof Sys2Proof.Machine

/-- The outcome is a next state of which `p` holds. -/
def nextIs (o : Host.Outcome State Fault Refusal) (p : State → Bool) : Bool :=
  match o with
  | .next t => p t
  | .fault _ => false
  | .refused _ => false

/-- A machine in a phase, with a picture of `w` by `h` pixels and small trees. -/
def machine (phase : Phase) (w h : Word) : State :=
  { State.reset with
    phase := phase
    cfg := { Cfg.zero with
      w := w, h := h, szMmap := 24, szMclr := 24, szFull := 24, szType := 24
      audio := Vector.replicate 7 0xC0000000#32 } }

/-- The running command's cursor at bit `pos` of `buf`. -/
def reading (s : State) (buf : List Byte) (pos : Nat) : State :=
  { s with work := { s.work with cur := { buf := buf, pos := pos, ovr := false } } }

/-! ### Ill-formed terms -/

theorem test_wf_readBits_17 : (Instr.readBits 17).wf = false := by decide
theorem test_wf_readBits_16 : (Instr.readBits 16).wf = true := by decide
theorem test_wf_reserved_command_word_1 : (Instr.reservedCmd 1).wf = false := by decide
theorem test_wf_reserved_command_word_0x101 : (Instr.reservedCmd 0x101).wf = true := by decide

theorem long_buffer_does_not_fit (buf : List Byte) (h : 2 ^ 32 ≤ buf.length) : bufferFits buf = false := by
  simp only [bufferFits, decide_eq_false_iff_not, not_lt]; exact h

theorem test_wf_buildTrees_too_long : (Instr.buildTrees (List.replicate (2 ^ 32) 0)).wf = false :=
  long_buffer_does_not_fit _ (le_of_eq List.length_replicate.symm)

theorem test_wf_decodeFrame_too_long : (Instr.decodeFrame (List.replicate (2 ^ 32) 0)).wf = false :=
  long_buffer_does_not_fit _ (le_of_eq List.length_replicate.symm)

theorem test_wf_unpackPalette_too_long : (Instr.unpackPalette (List.replicate (2 ^ 32) 0)).wf = false :=
  long_buffer_does_not_fit _ (le_of_eq List.length_replicate.symm)

theorem test_wf_decodeAudio_too_long : (Instr.decodeAudio 0 (List.replicate (2 ^ 32) 0) 1).wf = false :=
  long_buffer_does_not_fit _ (le_of_eq List.length_replicate.symm)

/-! ### Decoding: a word written out for every constructor that has an encoding -/

/-- A command word with an operand record whose buffer is `[1]`, track 2, size 3. -/
def cmd (w : Word) : Encoded :=
  .command { cmd := w, ops := { OperandRecord.zero with buf := [1], track := 2, unpacked := 3 } }

theorem test_decode_configure : decode (cmd 0x00000001) = .ok (.configure OperandRecord.zero.conf) := by rfl
theorem test_decode_buildTrees : decode (cmd 0x00000002) = .ok (.buildTrees [1]) := by rfl
theorem test_decode_decodeFrame : decode (cmd 0x00000003) = .ok (.decodeFrame [1]) := by rfl
theorem test_decode_unpackPalette : decode (cmd 0x00000004) = .ok (.unpackPalette [1]) := by rfl
theorem test_decode_decodeAudio : decode (cmd 0x00000005) = .ok (.decodeAudio 2 [1] 3) := by rfl
theorem test_decode_getDirtyRect : decode (cmd 0x00000006) = .ok .getDirtyRect := by rfl
theorem test_decode_ackPalette : decode (cmd 0x00000007) = .ok .ackPalette := by rfl
theorem test_decode_reserved_0 : decode (cmd 0x00000000) = .ok (.reservedCmd 0) := by rfl
theorem test_decode_reserved_8 : decode (cmd 0x00000008) = .ok (.reservedCmd 8) := by rfl
theorem test_decode_reserved_high : decode (cmd 0x00010006) = .ok (.reservedCmd 0x10006) := by rfl
-- T = COLOR RUNIDX KIND: 0x5503 = 01010101 000000 11, 0xABFF = 10101011 111111 11
theorem test_decode_blkMono : decode (.typeCode 0b0000000100000100) = .ok (.blkMono 1 1) := by decide
theorem test_decode_blkFull : decode (.typeCode 0b1000000011111101) = .ok (.blkFull 63 0x80) := by decide
theorem test_decode_blkSkip : decode (.typeCode 0b0000000000000010) = .ok (.blkSkip 0 0) := by decide
theorem test_decode_blkFill : decode (.typeCode 0b1010101111111111) = .ok (.blkFill 63 0xAB) := by decide
theorem test_decode_fullV2 : decode (.bits (.fullSel .v2) [true, true]) = .ok .fullV2 := by decide
theorem test_decode_fullV4M1 : decode (.bits (.fullSel .v4) [true, false]) = .ok .fullV4M1 := by decide
theorem test_decode_fullV4M2 : decode (.bits (.fullSel .v4) [false, true]) = .ok .fullV4M2 := by decide
theorem test_decode_fullV4M0 : decode (.bits (.fullSel .v4) [false, false]) = .ok .fullV4M0 := by decide
theorem test_decode_palSkip : decode (.palByte 0b11111110) = .ok (.palSkip 126) := by decide
theorem test_decode_palCopy : decode (.palByte 0b01000001) = .ok (.palCopy 1) := by decide
theorem test_decode_palLit : decode (.palByte 0b00111111) = .ok (.palLit 63) := by decide
theorem test_decode_btEmpty : decode (.bits (.btHeader .at2) [false]) = .ok (.btEmpty .at2) := by decide
theorem test_decode_btPresent : decode (.bits (.btHeader .hi) [true]) = .ok (.btPresent .hi) := by decide
theorem test_decode_bnodeLeaf : decode (.bits (.btNode .lo) [false]) = .ok (.bnodeLeaf .lo) := by decide
theorem test_decode_bnodeInternal : decode (.bits (.btNode .lo) [true]) = .ok (.bnodeInternal .lo) := by decide
theorem test_decode_wtEmpty : decode (.bits (.wtHeader .full) [false]) = .ok (.wtEmpty .full) := by decide
theorem test_decode_wtPresent : decode (.bits (.wtHeader .typ) [true]) = .ok (.wtPresent .typ) := by decide
theorem test_decode_wnodeLeaf : decode (.bits (.wtNode .mmap) [false]) = .ok (.wnodeLeaf .mmap) := by decide
theorem test_decode_wnodeInternal : decode (.bits (.wtNode .mclr) [true]) = .ok (.wnodeInternal .mclr) := by decide
theorem test_decode_audAbsent : decode (.bits .audHeader [false]) = .ok .audAbsent := by decide
theorem test_decode_audPresent : decode (.bits .audHeader [true]) = .ok .audPresent := by decide
theorem test_decode_too_few_bits : decode (.bits .audHeader []) = .error .tooFewBits := by decide
theorem test_micro_rows_have_no_encoding : encode (.skip 1) = none ∧ encode (.wordBuild .typ) = none := by decide

/-! ### Fetching: the step runs the word withFetchWord places -/

theorem test_fetch_command : decodeTableWord 32 6 = some .getDirtyRect ∧
    (State.reset.withFetchWord 32 6).fetch =
      .found (.command { cmd := 6, ops := OperandRecord.zero }) := ⟨rfl, rfl⟩

theorem test_fetch_literal :
    nextIs (step (State.reset.withFetchWord 8 0x3F))
      (fun t => findCell 0 t.pal.cells == some { r := 255, g := 0, b := 0 }) = true := by decide +kernel

theorem test_fetch_fill : decodeTableWord 16 0x5503 = some (.blkFill 0 0x55) ∧
    (State.reset.withFetchWord 16 0x5503).fetch = .found (.typeCode 0x5503) := ⟨rfl, rfl⟩

/-! ### Micro-operations: vectors BC1 to BC10, BT2 to BT11 -/

theorem test_readBit : nextIs (exec .readBit (reading State.reset [0xB4] 2))
    (fun t => t.work.res == 1 && t.work.cur.pos == 3 && !t.work.cur.ovr) = true := by decide +kernel
theorem test_readBit_past_end : nextIs (exec .readBit (reading State.reset [] 0))
    (fun t => t.work.res == 0 && t.work.cur.pos == 1 && t.work.cur.ovr) = true := by decide +kernel
theorem test_readBits_3_and_5 : nextIs (exec (.readBits 3) (reading State.reset [0xB4] 0))
    (fun t => t.work.res == 4 && nextIs (exec (.readBits 5) t)
      (fun u => u.work.res == 22 && u.work.cur.pos == 8 && !u.work.cur.ovr)) = true := by decide +kernel
theorem test_readBits_16 : nextIs (exec (.readBits 16) (reading State.reset [0x34, 0x12] 0))
    (fun t => t.work.res == 0x1234 && t.work.cur.pos == 16) = true := by decide +kernel
theorem test_peek8 : nextIs (exec .peek8 (reading State.reset [0xB4] 4))
    (fun t => t.work.res == 0x0B && t.work.cur.pos == 4 && !t.work.cur.ovr) = true := by decide +kernel
theorem test_skip : nextIs (exec (.skip 1) (reading State.reset [0xB4] 7))
    (fun t => t.work.cur.pos == 8 && !t.work.cur.ovr && nextIs (exec (.skip 1) t)
      (fun u => u.work.cur.pos == 9 && u.work.cur.ovr)) = true := by decide +kernel

theorem test_byteBuild_leaf : nextIs (exec (.byteBuild .at1) (reading State.reset [0x69, 0x01] 0))
    (fun t => t.work.at1.nodes == [.leaf 0x5A] && !t.work.at1.empty && t.work.cur.pos == 11) = true := by
  decide +kernel
theorem test_byteBuild_three_leaves :
    nextIs (exec (.byteBuild .lo) (reading State.reset [0x53, 0x6D, 0x17, 0x33] 0))
    (fun t => t.work.lo.nodes == [.internal 1, .leaf 0xAA, .internal 1, .leaf 0xBB, .leaf 0xCC] &&
      t.work.lo.pfx.take 4 == [⟨1, 1⟩, ⟨3, 2⟩, ⟨1, 1⟩, ⟨4, 2⟩] && t.work.cur.pos == 31) = true := by
  decide +kernel

/-- The code tree of BT4. -/
def bt4 : CodeTree Byte := .fork (.leaf 0xAA) (.fork (.leaf 0xBB) (.leaf 0xCC))

/-- A machine whose LO tree is `t`, reading `buf`. -/
def withLo (t : ByteCode) (buf : List Byte) : State :=
  { reading State.reset buf 0 with
    work := { (reading State.reset buf 0).work with lo := byteTreeOf t } }

theorem test_byteGetcode : nextIs (exec (.byteGetcode .lo) (withLo (some bt4) [0x01]))
    (fun t => t.work.res == 0xBB && t.work.cur.pos == 2) = true := by decide +kernel
theorem test_byteGetcode_empty : nextIs (exec (.byteGetcode .lo) (withLo none [0xFF]))
    (fun t => t.work.res == 0 && t.work.cur.pos == 0) = true := by decide +kernel
theorem test_btEmpty : nextIs (exec (.btEmpty .lo) (withLo (some bt4) [0x00]))
    (fun t => t.work.lo.empty && t.work.lo.nodes == [] && t.work.cur.pos == 1) = true := by decide +kernel
theorem test_btPresent : nextIs (exec (.btPresent .hi) (reading State.reset [0x8B, 0x20, 0x02] 0))
    (fun t => t.work.hi.nodes == [.internal 1, .leaf 0x11, .leaf 0x22] && t.work.cur.pos == 21) = true := by
  decide +kernel
-- BT2 from its second bit: `0` and the byte 0x5A
theorem test_bnodeLeaf : nextIs (exec (.bnodeLeaf .lo) (reading State.reset [0x69, 0x01] 1))
    (fun t => t.work.lo.nodes == [.leaf 0x5A] && t.work.count == 1 && t.work.cur.pos == 10) = true := by
  decide +kernel
theorem test_bnodeInternal : nextIs (exec (.bnodeInternal .lo) (reading State.reset [0x53, 0x6D, 0x17, 0x33] 1))
    (fun t => t.work.lo.nodes == [.internal 1, .leaf 0xAA, .internal 1, .leaf 0xBB, .leaf 0xCC] &&
      t.work.count == 5 && t.work.cur.pos == 30) = true := by decide +kernel

/-! ### Word trees: vectors WT1 to WT6 -/

/-- The stream of WT1. -/
def wt1 : List Byte := [0x57, 0xD0, 0x81, 0x00, 0x01, 0x08, 0x00, 0x38, 0x00, 0xF8, 0xFF, 0x4F, 0x19]

/-- What WT1 builds. -/
def wt1Cells : List (Node 16) := [.internal 1, .leaf 5, .internal 1, .leaf 0, .leaf 0, .leaf 0]

theorem test_wordBuild : nextIs (exec (.wordBuild .full) (reading (machine .configured 4 4) wt1 0))
    (fun t => t.wt.full.nodes == wt1Cells && t.wt.full.slot == ⟨4, 3, 5⟩ && t.work.cur.pos == 102) = true := by
  decide +kernel
theorem test_wordBuild_capacity :
    nextIs (exec (.wordBuild .full)
      (reading { machine .configured 4 4 with cfg := { (machine .configured 4 4).cfg with szFull := 20 } } wt1 0))
    (fun t => t.status.cause == .wordTreeCapacity && t.phase == .failed) = true := by decide +kernel
theorem test_wtPresent : nextIs (exec (.wtPresent .typ) (reading (machine .configured 4 4) wt1 0))
    (fun t => t.wt.typ.nodes == wt1Cells && t.wt.typ.mark == ⟨1, 7, 0xFFFF⟩ && t.work.cur.pos == 102) = true := by
  decide +kernel
theorem test_wtEmpty : nextIs (exec (.wtEmpty .typ) (reading (machine .configured 4 4) [0] 0))
    (fun t => t.wt.typ.empty && t.work.cur.pos == 1) = true := by decide +kernel

/-- The code tree of WT1's values, its markers having been stored as 0. -/
def wt1Shape : CodeTree Half := .fork (.leaf 5) (.fork (.leaf 0) (.leaf 0))

/-- The tree of WT1. -/
def wt1Tree : WordTree :=
  { built := true, empty := false, nodes := wt1Cells, pfx := wt1Shape.table
    mark := ⟨1, 7, 0xFFFF⟩, slot := ⟨4, 3, 5⟩ }

/-- A machine whose TYPE tree is WT1's with the given cells, reading `buf`. -/
def withTyp (phase : Phase) (nodes : List (Node 16)) (buf : List Byte) : State :=
  { reading (machine phase 4 4) buf 0 with
    wt :=
      { mmap := { unbuiltWordTree with built := true }, mclr := { unbuiltWordTree with built := true }
        full := { unbuiltWordTree with built := true }, typ := { wt1Tree with nodes := nodes } } }

-- WT2: code `0` returns 5 and the slots become (5, 0, 0); then code `10` returns 0 and they become (0, 5, 0)
theorem test_wordGetcode : nextIs (exec (.wordGetcode .typ) (withTyp .ready wt1Cells [0x6A]))
    (fun t => t.work.res == 5 && t.work.cur.pos == 1 &&
      t.wt.typ.nodes == [.internal 1, .leaf 5, .internal 1, .leaf 0, .leaf 5, .leaf 0] &&
      nextIs (exec (.wordGetcode .typ) t) (fun u => u.work.res == 0 && u.work.cur.pos == 3 &&
        u.wt.typ.nodes == [.internal 1, .leaf 5, .internal 1, .leaf 5, .leaf 0, .leaf 0])) = true := by
  decide +kernel
theorem test_wordReset :
    nextIs (exec (.wordReset .typ)
      (withTyp .ready [.internal 1, .leaf 5, .internal 1, .leaf 7, .leaf 8, .leaf 9] []))
    (fun t => t.wt.typ.nodes == wt1Cells) = true := by decide +kernel

/-- The description of WT4: LO = I(5, I(7, 9)), HI empty, markers 5, 5, 7. -/
def wt4 : WordCode :=
  { lo := some (.fork (.leaf 5) (.fork (.leaf 7) (.leaf 9))), hi := none, mark := ⟨5, 5, 7⟩
    tree := .fork (.leaf ([false], [])) (.fork (.leaf ([true, false], [])) (.leaf ([true, true], []))) }

/-- WT4's nodes alone: `1 0 0 1 0 10 0 11`, then padding. -/
def wt4Nodes : List Byte := [0b00101001, 0b11]

/-- A machine in the middle of WT4's construction, reading its nodes. -/
def inWt4 (pos : Nat) : State :=
  { reading (machine .configured 4 4) wt4Nodes pos with
    wt := (machine .configured 4 4).wt.set .typ { clearWordTree unbuiltWordTree with mark := wt4.mark }
    work := { (reading (machine .configured 4 4) wt4Nodes pos).work with
      lo := byteTreeOf wt4.lo, hi := byteTreeOf wt4.hi } }

theorem test_wnodeInternal : nextIs (exec (.wnodeInternal .typ) (inWt4 0))
    (fun t => t.wt.typ.nodes == [.internal 1, .leaf 0, .internal 1, .leaf 0, .leaf 9] &&
      t.wt.typ.slot == ⟨1, 1, 3⟩ && t.work.count == 5 && t.work.cur.pos == 10) = true := by decide +kernel
-- from bit 1: a leaf whose low code is `0`
theorem test_wnodeLeaf : nextIs (exec (.wnodeLeaf .typ) (inWt4 1))
    (fun t => t.wt.typ.nodes == [.leaf 0] && t.wt.typ.slot == ⟨0, 0, 0⟩ &&
      t.work.marked == ⟨true, true, false⟩ && t.work.cur.pos == 3) = true := by decide +kernel
theorem test_wt4_stands_for : (wt4.built true).nodes = [.internal 1, .leaf 0, .internal 1, .leaf 0, .leaf 9] ∧
    (wt4.built true).slot = ⟨1, 1, 3⟩ := by decide +kernel

/-! ### Frames: vectors BS1 to BS3, programs P1, P3 and P7 -/

/-- P1's blob. -/
def p1Blob : List Byte := [0xD8, 0x80, 0xAA, 0, 0, 0, 0, 0, 0, 0]

theorem test_buildTrees : nextIs (exec (.buildTrees p1Blob) (machine .configured 4 4))
    (fun t => t.phase == .ready && t.status == ⟨.ok, .none⟩ && t.wt.typ.nodes.head? == some (.leaf 0x5503) &&
      t.wt.typ.built && t.wt.mmap.empty) = true := by decide +kernel
theorem test_buildTrees_short : nextIs (exec (.buildTrees (p1Blob.take 9)) (machine .configured 4 4))
    (fun t => t.phase == .failed && t.status == ⟨.dataTruncated, .bootstrapOverrun⟩) = true := by decide +kernel

/-- A tree of two codes: `0` is `a` and `1` is `b`; its slots are three further cells. -/
def twoCodes (a b : Half) : WordTree :=
  { built := true, empty := false
    nodes := [.internal 1, .leaf a, .leaf b, .leaf 0, .leaf 0, .leaf 0]
    pfx := (CodeTree.fork (.leaf a) (.leaf b)).table, mark := ⟨0, 0, 0⟩, slot := ⟨3, 4, 5⟩ }

/-- A READY machine of 8 by 4 pixels with P7's colours: MONO 0x0A05 under mask 0x8421, FULL 0x2211 and 0x4433;
TYPE has MONO and FULL runs of one block. -/
def painter (sv : SubVer) : State :=
  { machine .ready 8 4 with
    cfg := { (machine .ready 8 4).cfg with subver := sv }
    wt :=
      { mmap := twoCodes 0x8421 0, mclr := twoCodes 0x0A05 0, full := twoCodes 0x2211 0x4433
        typ := twoCodes 0x0000 0x0001 } }

/-- Row `y` of block 0. -/
def row (t : State) (y : Nat) : List (Option Byte) :=
  (List.range 4).map fun x => findCell (y * 8 + x) t.surf.cells

-- FR1: MONO with C = 0x0A05 and M = 0x8421, then FULL mode 1 with P = 0x2211 and Q = 0x4433
theorem test_decodeFrame : nextIs (exec (.decodeFrame [0x00, 0x00]) (painter .v2))
    (fun t => t.status == ⟨.ok, .none⟩ && t.dirty == [0, 1] && row t 0 == [some 0x0A, some 5, some 5, some 5] &&
      row t 3 == [some 5, some 5, some 5, some 0x0A]) = true := by decide +kernel
theorem test_decodeFrame_overrun : nextIs (exec (.decodeFrame []) (painter .v2))
    (fun t => t.status == ⟨.consistencyError, .frameOverrun⟩ && t.phase == .failed) = true := by decide +kernel
theorem test_blkMono : nextIs (exec (.blkMono 0 0) (reading (painter .v2) [0] 0))
    (fun t => row t 1 == [some 5, some 0x0A, some 5, some 5] && t.dirty == [0] && t.work.blk == 1 &&
      t.work.cur.pos == 2) = true := by decide +kernel
theorem test_blkFill : nextIs (exec (.blkFill 63 0xAB) (painter .v2))
    (fun t => t.dirty == [0, 1] && t.work.blk == 2 && findCell 31 t.surf.cells == some 0xAB) = true := by
  decide +kernel
theorem test_blkSkip : nextIs (exec (.blkSkip 63 0) (painter .v2))
    (fun t => t.dirty == [] && t.work.blk == 2 && t.surf.cells == []) = true := by decide +kernel
-- V4, selector `0 1`: mode 2, the codes 0x2211, 0x4433 twice
theorem test_blkFull_v4 : nextIs (exec (.blkFull 0 0) (reading (painter .v4) [0b101010] 0))
    (fun t => row t 0 == [some 0x33, some 0x44, some 0x11, some 0x22] && t.work.mode == 2 &&
      t.work.cur.pos == 6) = true := by decide +kernel
-- V2, no selector: four rows of 0x2211, 0x4433
theorem test_blkFull_v2 : nextIs (exec (.blkFull 0 0) (reading (painter .v2) [0b10101010] 0))
    (fun t => row t 3 == [some 0x33, some 0x44, some 0x11, some 0x22] && t.work.cur.pos == 8) = true := by
  decide +kernel

/-- The painter in the middle of a FULL run of one block. -/
def inRun (sv : SubVer) (buf : List Byte) : State :=
  { reading (painter sv) buf 0 with work := { (reading (painter sv) buf 0).work with run := 1 } }

theorem test_fullV2 : nextIs (exec .fullV2 (inRun .v2 [0b10101010]))
    (fun t => row t 0 == [some 0x33, some 0x44, some 0x11, some 0x22] && t.work.cur.pos == 8) = true := by
  decide +kernel
theorem test_fullV4M1 : nextIs (exec .fullV4M1 (inRun .v4 [0b101]))
    (fun t => row t 1 == [some 0x11, some 0x11, some 0x22, some 0x22] &&
      row t 2 == [some 0x33, some 0x33, some 0x44, some 0x44] && t.work.cur.pos == 3) = true := by decide +kernel
theorem test_fullV4M2 : nextIs (exec .fullV4M2 (inRun .v4 [0b101010]))
    (fun t => row t 2 == [some 0x33, some 0x44, some 0x11, some 0x22] && t.work.cur.pos == 6) = true := by
  decide +kernel
theorem test_fullV4M0 : nextIs (exec .fullV4M0 (inRun .v4 [0b10101000, 0b10]))
    (fun t => row t 1 == [some 0x33, some 0x44, some 0x11, some 0x22] && t.work.cur.pos == 10) = true := by
  decide +kernel

/-! ### Dirty rectangles: vectors DR1, DR3 -/

/-- A machine whose blocks are `dirty`. -/
def withDirty (w h : Word) (dirty : List Nat) : State := { machine .ready w h with dirty := dirty }

theorem test_getDirtyRect_square : nextIs (exec .getDirtyRect (withDirty 8 8 [0, 1, 2, 3]))
    (fun t => t.rect == some ⟨0, 0, 8, 8⟩ && t.dirty == [] &&
      nextIs (exec .getDirtyRect t) (fun u => u.rect == none)) = true := by decide +kernel
-- R299's first call
theorem test_getDirtyRect_neighbour : nextIs (exec .getDirtyRect (withDirty 16 12 [1, 2, 5, 6, 7, 9, 10]))
    (fun t => t.rect == some ⟨4, 0, 12, 4⟩ && t.dirty == [5, 6, 7, 9, 10] && t.scan == 1) = true := by
  decide +kernel

/-! ### Palette: vectors PL1 and those of R313, R314 -/

/-- The chunk of R310's example. -/
def pl1 : List Byte := [0x02, 0x3F, 0x20, 0x01, 0xFE, 0xFE, 0x80, 0x00]

theorem test_unpackPalette : nextIs (exec (.unpackPalette pl1) (machine .configured 4 4))
    (fun t => t.pal.cells == [(0, ⟨255, 130, 4⟩)] && t.consumed == 8 && t.palDirty) = true := by decide +kernel
theorem test_unpackPalette_trunc : nextIs (exec (.unpackPalette [1, 0xFE, 0xFE, 0, 0]) (machine .configured 4 4))
    (fun t => t.status == ⟨.dataTruncated, .palTrunc⟩ && t.phase == .failed) = true := by decide +kernel
theorem test_ackPalette :
    nextIs (exec .ackPalette { machine .ready 4 4 with palDirty := true }) (fun t => !t.palDirty) = true := by
  decide +kernel

/-- A machine inside a palette chunk: control byte at p = 1, entry `e`, `len` bytes. -/
def inChunk (e len : Nat) (buf : List Byte) : State :=
  { reading (machine .configured 4 4) buf 0 with
    work := { (reading (machine .configured 4 4) buf 0).work with
      palLen := len, palPos := 1, palEntry := e, old := { base := .init, cells := [(7, ⟨1, 2, 3⟩)] } } }

theorem test_palSkip : nextIs (exec (.palSkip 0) (inChunk 255 4 [1, 0x80, 0, 0]))
    (fun t => t.work.palEntry == 256 && t.work.palPos == 2) = true := by decide +kernel
theorem test_palSkip_overshoot : nextIs (exec (.palSkip 1) (inChunk 255 4 [1, 0x81, 0, 0]))
    (fun t => t.status == ⟨.consistencyError, .palOvershoot⟩) = true := by decide +kernel
theorem test_palCopy : nextIs (exec (.palCopy 0) (inChunk 3 4 [1, 0x40, 7, 0]))
    (fun t => t.pal.cells == [(3, ⟨1, 2, 3⟩)] && t.work.palEntry == 4 && t.work.palPos == 3) = true := by
  decide +kernel
theorem test_palCopy_range : nextIs (exec (.palCopy 1) (inChunk 3 4 [1, 0x41, 255, 0]))
    (fun t => t.status == ⟨.consistencyError, .palCopyRange⟩) = true := by decide +kernel
theorem test_palLit : nextIs (exec (.palLit 0x3F) (inChunk 9 4 [1, 0x3F, 0x20, 0xC1]))
    (fun t => t.pal.cells == [(9, ⟨255, 130, 4⟩)] && t.work.palEntry == 10 && t.work.palPos == 4) = true := by
  decide +kernel

/-! ### Audio: vectors AU1, AU2 -/

theorem test_decodeAudio : nextIs (exec (.decodeAudio 0 [0x29, 0, 0] 2) (machine .configured 4 4))
    (fun t => t.out == [.s8 0x80, .s8 0x81] && t.status == ⟨.ok, .none⟩) = true := by decide +kernel
theorem test_decodeAudio_bad_track : nextIs (exec (.decodeAudio 7 [0x29, 0, 0] 2) (machine .configured 4 4))
    (fun t => t.status == ⟨.refused, .badTrack⟩ && t.phase == .configured) = true := by decide +kernel
theorem test_audAbsent :
    nextIs (exec .audAbsent (reading { machine .configured 4 4 with out := [.s8 1] } [0] 0))
    (fun t => t.out == [] && t.status == ⟨.ok, .none⟩ && t.work == Work.idle) = true := by decide +kernel

/-- A machine that has fetched the first bit of Scenario D's chunk. -/
def inAudio : State :=
  { reading (machine .configured 4 4) [0x29, 0, 0] 0 with
    work := { (reading (machine .configured 4 4) [0x29, 0, 0] 0).work with unpacked := 2 } }

theorem test_audPresent : nextIs (exec .audPresent inAudio) (fun t => t.out == [.s8 0x80, .s8 0x81]) = true := by
  decide +kernel

/-! ### CONFIGURE and reserved commands -/

/-- CONFIGURE's operands for a picture of 4 by 4 pixels. -/
def confOps (last : Byte) : ConfigOps :=
  { OperandRecord.zero.conf with sig := ⟨0x53, 0x4D, 0x4B, last⟩, w := 4, h := 4, flags := 2, szType := 16 }

theorem test_configure : nextIs (exec (.configure (confOps 0x34)) State.reset)
    (fun t => t.phase == .configured && t.cfg.subver == .v4 && t.cfg.nb == 1 && t.cfg.d == 2 &&
      t.cfg.cap .typ == 4) = true := by decide +kernel
theorem test_configure_bad_signature : nextIs (exec (.configure (confOps 0x33)) State.reset)
    (fun t => t.phase == .unconfigured && t.status == ⟨.formatError, .badSignature⟩) = true := by decide +kernel
theorem test_reservedCmd : nextIs (exec (.reservedCmd 0) { State.reset with phase := .failed })
    (fun t => t.phase == .failed && t.status == ⟨.refused, .illegalCommand⟩) = true := by decide +kernel

/-! ### Witnesses: for every statement with hypotheses, a state and operands that meet them all -/

theorem nextIs_elim {o : Host.Outcome State Fault Refusal} {p : State → Bool} (h : nextIs o p = true) :
    ∃ t, o = .next t ∧ p t = true := by
  cases o with
  | next t => exact ⟨t, rfl, h⟩
  | fault r => cases h
  | refused r => cases h

/-- The computation succeeds with a value of which `p` holds. -/
def okIs {α : Type} (r : Except Cause α) (p : α → Bool) : Bool :=
  match r with
  | .ok v => p v
  | .error _ => false

theorem okIs_elim {α : Type} {r : Except Cause α} {p : α → Bool} (h : okIs r p = true) :
    ∃ v, r = .ok v ∧ p v = true := by
  cases r with
  | ok v => exact ⟨v, rfl, h⟩
  | error c => cases h

theorem witness_DecodeEncodeAgree : (Instr.reservedCmd 0xFFFFFFFF).wf = true ∧
    (encode (.reservedCmd 0xFFFFFFFF)).isSome = true ∧ (encode (.blkFill 63 255)).isSome = true := by decide

theorem witness_TypeCodeFields :
    (0x0000#16).toNat % 4 = 0 ∧ (0xFFFD#16).toNat % 4 = 1 ∧ (0xFFFE#16).toNat % 4 = 2 ∧
    (0xFFFF#16).toNat % 4 = 3 ∧ (0x00FE#16).toNat % 256 = (0xFFFE#16).toNat % 256 ∧
    decode (.typeCode 0x00FE) = .ok (.blkSkip 63 0) ∧ decode (.typeCode 0xFFFE) = .ok (.blkSkip 63 255) := by decide

theorem witness_PaletteControlByteFields :
    128 ≤ (0x80#8).toNat ∧ 128 ≤ (0xFF#8).toNat ∧ 64 ≤ (0x40#8).toNat ∧ (0x7F#8).toNat < 128 ∧
    (0x3F#8).toNat < 64 ∧ (0x00#8).toNat < 64 ∧ (0x3F#8).toNat % 64 = (0xFF#8).toNat % 64 := by decide

/-- A machine with a command at the port. -/
def issued (s : State) (w : Word) : State := { s with port := some { cmd := w, ops := OperandRecord.zero } }

theorem witness_StepRunsTheDecodedInstruction :
    (issued State.reset 6).resetPin = false ∧ (issued State.reset 6).expect = .command ∧
    (issued State.reset 6).fetch = .found (.command { cmd := 6, ops := OperandRecord.zero }) ∧
    decode (.command { cmd := 6, ops := OperandRecord.zero }) = .ok .getDirtyRect ∧
    Instr.getDirtyRect.wf = true ∧ State.reset.port = none ∧
    2 ≤ (2#32).toNat ∧ (5#32).toNat ≤ 5 ∧
    2 ^ 32 ≤ ({ OperandRecord.zero with buf := List.replicate (2 ^ 32) 0 } : OperandRecord).buf.length :=
  ⟨rfl, rfl, rfl, rfl, rfl, rfl, by decide, by decide, le_of_eq List.length_replicate.symm⟩

theorem witness_ReservedCommandsAreIllegal :
    (issued State.reset 0).resetPin = false ∧ (issued State.reset 0).expect = .command ∧
    (0x00000000#32).toNat % 256 = 0 ∧ 8 ≤ (0x00000008#32).toNat % 256 ∧ 8 ≤ (0x000000FF#32).toNat % 256 ∧
    256 ≤ (0x00000101#32).toNat ∧ 256 ≤ (0xFFFFFFFF#32).toNat := by decide

theorem witness_PhaseAdmission :
    admission (.configure (confOps 0x32)) = some onlyUnconfigured ∧ onlyUnconfigured.holds .failed = false ∧
    onlyUnconfigured.holds .unconfigured = true ∧ admission (.buildTrees []) = some onlyConfigured ∧
    onlyConfigured.holds .ready = false ∧ onlyConfigured.holds .configured = true ∧
    admission (.decodeFrame []) = some onlyReady ∧ onlyReady.holds .configured = false ∧
    onlyReady.holds .ready = true ∧ admission .ackPalette = some onceConfigured ∧
    onceConfigured.holds .unconfigured = false ∧ onceConfigured.holds .ready = true :=
  ⟨rfl, rfl, rfl, rfl, rfl, rfl, rfl, rfl, rfl, rfl, rfl, rfl⟩

theorem witness_HowCommandsEnd :
    isCommand .ackPalette = true ∧
    nextIs (exec .ackPalette State.reset) (fun t => t.status.code == .refused) = true ∧
    nextIs (exec (.configure (confOps 0x33)) State.reset) (fun t => t.status.code == .formatError) = true ∧
    nextIs (exec (.decodeAudio 0 [] 0)
        { machine .ready 4 4 with cfg := { Cfg.zero with audio := Vector.replicate 7 0x48000000#32 } })
      (fun t => t.status.code == .unsupportedFeature) = true ∧
    nextIs (exec (.buildTrees []) (machine .configured 4 4)) (fun t => t.status.code == .dataTruncated) = true ∧
    nextIs (exec (.decodeFrame []) (painter .v2)) (fun t => t.status.code == .consistencyError) = true := by
  decide +kernel

theorem witness_FailedIsLeftOnlyByReset :
    (issued (machine .failed 4 4) 7).phase = .failed ∧ (issued (machine .failed 4 4) 7).expect = .command ∧
    (issued (machine .failed 4 4) 7).resetPin = false ∧
    nextIs (step (issued (machine .failed 4 4) 7)) (fun t => t.status.cause == .wrongPhase) = true ∧
    nextIs (step (issued (machine .failed 4 4) 8)) (fun t => t.status.cause == .illegalCommand) = true := by
  decide +kernel

theorem witness_ResetInputResets : (machine .failed 4 4).assertReset.resetPin = true := rfl

theorem witness_ConstantTables : (0#6).toNat ≤ 58 ∧ (58#6).toNat ≤ 58 := by decide

theorem witness_HostReadsBetweenCommands : (machine .ready 4 4).port = none ∧ (machine .ready 4 4).phase = .ready ∧
    (issued (machine .ready 4 4) 7).port.isSome = true ∧ 3 < (machine .ready 4 4).cfg.w.toNat ∧
    3 < (machine .ready 4 4).cfg.h.toNat * (machine .ready 4 4).cfg.d ∧
    State.reset.port = none ∧ State.reset.phase = .unconfigured := by decide

/-- An open machine with no command and nothing written is in the invariant. -/
theorem configured_inv : (machine .configured 4 4).Inv where
  atPort := rfl
  noWork := rfl
  classed := rfl
  surfForm := List.Pairwise.nil
  palForm := List.Pairwise.nil
  bases := fun _ => ⟨rfl, rfl⟩
  built := fun _ k => by cases k <;> rfl
  sound := fun h => by cases h
  surfGrid := fun _ p hp => by cases hp
  palRange := fun _ p hp => by cases hp
  dirtyOrder := fun _ => List.Pairwise.nil
  dirtyRange := fun _ b hb => by cases hb
  scanRange := fun _ => Nat.zero_le _
  clean := fun _ => rfl
  consumed := by decide

theorem witness_StepKeepsInvariant : (machine .configured 4 4).Inv ∧
    ∃ t, step (machine .configured 4 4) = .next t := ⟨configured_inv, _, rfl⟩

theorem witness_OverrunFlagStaysTrue :
    (reading State.reset [0xB4] 8).work.cur.fair ∧ ({ buf := [], pos := 1, ovr := true } : Cursor).fair :=
  ⟨fun h => by revert h; decide, fun _ => rfl⟩

theorem witness_ReadBitsAndPeekEffect_ReadBitsIsARunOfReadBits_PeekShowsTheNextBits : 0 ≤ 16 ∧ (16 : Nat) ≤ 16 ∧ (8 : Nat) ≤ 8 ∧
    (reading State.reset [0xB4] 8).work.cur.fair := ⟨by decide, le_rfl, le_rfl, fun h => by revert h; decide⟩

theorem witness_EmptyByteTree : (withLo none [0xFE]).work.cur.bit (withLo none [0xFE]).work.cur.pos = false ∧
    ((withLo none [0xFE]).work.byteTree .lo).empty = true := by decide

theorem witness_ByteBuildReadsTheTree : bt4.count ≤ 511 ∧
    (reading State.reset [0x53, 0x6D, 0x17, 0x33] 0).work.cur.shows 0 (byteTreeBits (some bt4)) :=
  ⟨by decide, Cursor.shows_of_all _ _ _ (by decide +kernel)⟩

theorem witness_ByteNodeReadsTheSubtree_fork :
    (State.reset.work.byteTree .lo).nodes.length + bt4.count ≤ 511 ∧
    (State.reset.work.codeLen ≤ 8 → State.reset.work.codePfx < 2 ^ State.reset.work.codeLen) ∧
    (reading State.reset [0x53, 0x6D, 0x17, 0x33] 1).work.cur.shows 1 bt4.nodeBits :=
  ⟨by decide, by decide, Cursor.shows_of_all _ _ _ (by decide +kernel)⟩

theorem witness_ByteNodeReadsTheSubtree_leaf :
    510 + (CodeTree.leaf (0x5A : Byte)).count ≤ 511 ∧ ((8 : Nat) ≤ 8 → 255 < 2 ^ 8) ∧
    (reading State.reset [0x69, 0x01] 1).work.cur.shows 1 (CodeTree.leaf (0x5A : Byte)).nodeBits :=
  ⟨by decide, by decide, Cursor.shows_of_all _ _ _ (by decide +kernel)⟩

/-- A comb of `n` internal nodes on the left side, all of whose leaves are 0. -/
def comb : Nat → CodeTree Byte
  | 0 => .leaf 0
  | n + 1 => .fork (comb n) (.leaf 0)

theorem comb_count (n : Nat) : (comb n).count = 2 * n + 1 := by
  induction n with
  | zero => rfl
  | succ n ih => simp only [comb, CodeTree.count, ih]; omega

theorem comb_bits (n : Nat) : (comb n).nodeBits =
    List.replicate n (some true) ++ List.replicate (9 * (n + 1)) (some false) := by
  induction n with
  | zero => decide
  | succ n ih =>
    have h : (CodeTree.leaf (0 : Byte)).nodeBits = List.replicate 9 (some false) := by decide
    have h9 : List.replicate (9 * (n + 1)) (some false) ++ List.replicate 9 (some false) =
        List.replicate (9 * (n + 1 + 1)) (some false) := by
      rw [List.replicate_append_replicate]
      congr 1
    rw [comb, CodeTree.nodeBits, ih, h, ← h9, List.replicate_succ (n := n)]
    simp only [List.cons_append, List.append_assoc]

/-- A buffer of 257 one bits, and zeros. -/
def ones : Cursor := Cursor.over (List.replicate 32 0xFF ++ [0x01])

theorem ones_bit (k : Nat) : ones.bit k = decide (k < 257) := by
  by_cases h : k < 264
  · revert k; decide +kernel
  · rw [Cursor.bit_past_end _ (by change 264 ≤ k; omega)]; simp; omega

theorem comb_shown (n k : Nat) (b : Bool)
    (hk : (byteTreeBits (some (comb n)))[k]? = some (some b)) : decide (k < n + 1) = b := by
  have e : byteTreeBits (some (comb n)) =
      List.replicate (n + 1) (some true) ++ (List.replicate (9 * (n + 1)) (some false) ++ [none]) := by
    simp only [byteTreeBits, comb_bits, List.replicate_succ, List.cons_append, List.append_assoc]
  rw [e] at hk
  by_cases hn : k < n + 1
  · rw [List.getElem?_append_left (by rwa [List.length_replicate]), List.getElem?_replicate, if_pos hn] at hk
    simp_all
  · rw [List.getElem?_append_right (by rw [List.length_replicate]; omega), List.length_replicate] at hk
    rw [decide_eq_false hn]
    by_cases h2 : k - (n + 1) < 9 * (n + 1)
    · rw [List.getElem?_append_left (by rwa [List.length_replicate]), List.getElem?_replicate, if_pos h2] at hk
      simp_all
    · rw [List.getElem?_append_right (by rw [List.length_replicate]; omega), List.length_replicate] at hk
      cases hm : k - (n + 1) - 9 * (n + 1) <;> rw [hm] at hk <;> simp at hk

theorem witness_TreeCapacities_byte : 511 < (comb 256).count ∧ ones.shows 0 (byteTreeBits (some (comb 256))) := by
  refine ⟨by rw [comb_count]; decide, fun k b hk => ?_⟩
  rw [ones_bit, Nat.zero_add]
  exact comb_shown 256 k b hk

/-- The stream of WT4. -/
def wt4Bytes : List Byte := [0x57, 0xD0, 0x81, 0x04, 0x0A, 0x00, 0x0A, 0x00, 0x0E, 0x00, 0x52, 0x06]

theorem wt4_legal : wt4.legal := ⟨by change (5 : Nat) ≤ 511; decide, trivial, by decide⟩

theorem wt4_shown : (Cursor.over wt4Bytes).shows 0 (wordTreeBits (some wt4)) :=
  Cursor.shows_of_all _ _ _ (by decide +kernel)

theorem witness_TreeCapacities_word :
    Overfull ((19#32).toNat / 4) (wordTreeBits (some wt4)) .wordTreeCapacity ∧
    (reading State.reset wt4Bytes 0).work.cur.shows 0 (wordTreeBits (some wt4)) :=
  ⟨.cells _ wt4_legal (by decide +kernel), wt4_shown⟩

/-- Bits `pre`, then 257 ones, and zeros, which hold the comb. -/
def combAfter (pre : Nat) (bytes : List Byte) : Prop :=
  (∀ k, k < 8 * bytes.length → pre ≤ k → (Cursor.over bytes).bit k = decide (k < pre + 257)) ∧
  pre + 257 ≤ 8 * bytes.length

theorem combAfter_shows {pre : Nat} {bytes : List Byte} (h : combAfter pre bytes) :
    (Cursor.over bytes).shows pre (byteTreeBits (some (comb 256))) := by
  intro k b hk
  have e := comb_shown 256 k b hk
  by_cases hl : pre + k < 8 * bytes.length
  · rw [h.1 _ hl (by omega), ← e, decide_eq_decide]; omega
  · rw [Cursor.bit_past_end _ (by change 8 * bytes.length ≤ _; omega), ← e]
    exact (decide_eq_false (by have := h.2; omega)).symm

theorem comb_large : 511 < (comb 256).count := by rw [comb_count]; decide

-- bit 1, then the comb as LO
theorem witness_TreeCapacities_lo :
    Overfull 6 (some true :: byteTreeBits (some (comb 256))) .byteTreeCapacity ∧
    (Cursor.over (List.replicate 32 0xFF ++ [0x03])).shows 0 (some true :: byteTreeBits (some (comb 256))) :=
  ⟨.lo _ comb_large, (Cursor.shows_append _ 0 [some true] _).2
    ⟨Cursor.shows_of_all _ _ _ (by decide +kernel), combAfter_shows ⟨by decide +kernel, by decide⟩⟩⟩

-- empty MMAP, then MCLR: bit 1, an empty LO, and the comb as HI
theorem witness_TreeCapacities_build_trees : (machine .configured 4 4).phase = .configured ∧
    (∀ j ∈ treesBefore .mclr, wordTreeFits (((machine .configured 4 4).cfg.size j).toNat / 4) none) ∧
    Overfull 6 (some true :: (byteTreeBits none ++ byteTreeBits (some (comb 256)))) .byteTreeCapacity ∧
    (Cursor.over (0xFA :: (List.replicate 31 0xFF ++ [0x0F]))).shows 0
      ((treesBefore .mclr).flatMap (fun _ => wordTreeBits none) ++
        (some true :: (byteTreeBits none ++ byteTreeBits (some (comb 256))))) :=
  ⟨rfl, fun _ _ => trivial, .hi none _ trivial comb_large,
    (Cursor.shows_append _ 0 [some false, some true, some false] _).2
    ⟨Cursor.shows_of_all _ _ _ (by decide +kernel), combAfter_shows ⟨by decide +kernel, by decide⟩⟩⟩

-- present, mono, 8-bit, then the comb
theorem witness_TreeCapacities_audio :
    (machine .configured 4 4).cfg.audio[(0#3).toNat]? = some 0xC0000000#32 ∧ 1 ≤ (1#32).toNat ∧
    (1#32).toNat % 1 = 0 ∧ ([] : List ByteCode).length < 1 ∧ 511 < (comb 256).count ∧
    (Cursor.over (0xF9 :: (List.replicate 31 0xFF ++ [0x0F]))).shows 0
      (some true :: some false :: some false ::
        (([] : List ByteCode).flatMap byteTreeBits ++ byteTreeBits (some (comb 256)))) :=
  ⟨rfl, by decide, by decide, by decide, comb_large,
    (Cursor.shows_append _ 0 [some true, some false, some false] _).2
    ⟨Cursor.shows_of_all _ _ _ (by decide +kernel), combAfter_shows ⟨by decide +kernel, by decide⟩⟩⟩

theorem witness_WordBuildReadsTheTree : wordTreeFits ((20#32).toNat / 4) (some wt4) ∧
    (reading State.reset wt4Bytes 0).work.cur.shows 0 (wordTreeBits (some wt4)) :=
  ⟨⟨wt4_legal, by decide +kernel⟩, wt4_shown⟩

theorem witness_ByteGetcodeFollowsTheCode :
    (withLo (some bt4) [0x01]).work.byteTree .lo = byteTreeOf (some bt4) ∧
    byteCodeOf (some bt4) [true, false] = some 0xBB ∧
    (withLo (some bt4) [0x01]).work.cur.shows 0 (fixed [true, false]) ∧
    (withLo (some bt4) [0x01]).work.cur.fair ∧ byteCodeOf none [] = some 0 :=
  ⟨rfl, rfl, Cursor.shows_of_all _ _ _ (by decide +kernel), fun h => by revert h; decide, rfl⟩

theorem witness_PrefixTableOnlyOptimises_ByteTreeStructure :
    (∃ v, buildByteTree (Cursor.over [0x53, 0x6D, 0x17, 0x33]) = .ok v ∧ (!v.1.empty) = true) ∧
    (Cursor.over [0x01]).fair :=
  ⟨okIs_elim (p := fun v : ByteTree × Cursor => !v.1.empty) (by decide +kernel), fun h => by revert h; decide⟩

theorem witness_EmptyWordTree :
    (reading (machine .configured 4 4) [0] 0).work.cur.bit 0 = false ∧
    ((machine .configured 4 4).wt.get .full).empty = true := by decide

theorem witness_WordNodeReadsTheSubtree :
    wt4.legal ∧ (inWt4 0).work.lo = byteTreeOf wt4.lo ∧ (inWt4 0).work.hi = byteTreeOf wt4.hi ∧
    ((inWt4 0).wt.get .typ).mark = wt4.mark ∧
    ((inWt4 0).wt.get .typ).nodes.length + wt4.tree.count ≤ (inWt4 0).cfg.cap .typ ∧
    ((inWt4 0).work.codeLen ≤ 8 → (inWt4 0).work.codePfx < 2 ^ (inWt4 0).work.codeLen) ∧
    (inWt4 0).work.cur.shows 0 (wordNodeBits wt4.tree) :=
  ⟨wt4_legal, rfl, rfl, rfl, by decide, by decide, Cursor.shows_of_all _ _ _ (by decide +kernel)⟩

/-- WT4 with its first leaf alone. -/
def wt4Leaf : WordCode := { wt4 with tree := .leaf ([false], []) }

theorem witness_WordNodeReadsTheSubtree_leaf : wt4Leaf.legal ∧
    ((inWt4 1).wt.get .typ).nodes.length + wt4Leaf.tree.count ≤ (inWt4 1).cfg.cap .typ ∧
    (inWt4 1).work.cur.shows 1 (wordNodeBits wt4Leaf.tree) :=
  ⟨⟨by change (5 : Nat) ≤ 511; decide, trivial, by decide⟩, by decide,
    Cursor.shows_of_all _ _ _ (by decide +kernel)⟩

theorem witness_WordTreeStructure :
    ∃ v, buildWordTree 5 unbuiltWordTree (Cursor.over wt4Bytes) = .ok v ∧ (!v.1.empty) = true :=
  okIs_elim (p := fun v : WordTree × Cursor => !v.1.empty) (by decide +kernel)

/-- WT2's tree, in READY. -/
def wt2 (buf : List Byte) : State := withTyp .ready wt1Cells buf

theorem witness_WordGetcodeEffect :
    ((wt2 [0x6A]).wt.get .typ).empty = false ∧
    ((wt2 [0x6A]).wt.get .typ).nodes = wt1Shape.cells ++ [(0 : Half)].map Node.leaf ∧
    ((wt2 [0x6A]).wt.get .typ).pfx = wt1Shape.table ∧
    (∀ j : Fin 3, ((wt2 [0x6A]).wt.get .typ).nodes[((wt2 [0x6A]).wt.get .typ).slot.get j]? =
      some (.leaf (({ j0 := 0, j1 := 0, j2 := 0 } : Tri Half).get j))) ∧
    wt1Shape.find [false] = some 5 ∧ wt1Shape.find [true, false] = some 0 ∧
    (wt2 [0x6A]).work.cur.shows 0 (fixed [false]) ∧ (wt2 [0x6B]).work.cur.shows 0 (fixed [true, true]) ∧
    (wt2 [0x6A]).work.cur.fair :=
  ⟨rfl, rfl, rfl, by decide, rfl, rfl, Cursor.shows_of_all _ _ _ (by decide +kernel),
    Cursor.shows_of_all _ _ _ (by decide +kernel), fun h => by revert h; decide⟩

theorem witness_MruStability :
    nextIs (exec (.wordGetcode .typ) (wt2 [0x6A])) (fun t => t.work.res != 0) = true ∧
    nextIs (exec (.wordGetcode .typ) (wt2 [0x01])) (fun t => t.work.res == 0) = true ∧
    ((wt2 []).wt.get .typ).slot = ⟨4, 3, 5⟩ := by decide +kernel

theorem witness_WordResetEffect : ((wt2 []).wt.get .typ).empty = false ∧
    ∀ j : Fin 3, ((wt2 []).wt.get .typ).slot.get j < ((wt2 []).wt.get .typ).nodes.length := by decide

theorem witness_RunsRepeatTheirBlock :
    (painter .v2).cfg.subver = .v2 ∧ (painter .v4).cfg.subver = .v4 ∧
    (reading (painter .v4) [0b01] 0).work.cur.bit 0 = true ∧
    (reading (painter .v4) [0b10] 0).work.cur.bit 0 = false ∧
    (reading (painter .v4) [0b10] 0).work.cur.bit 1 = true ∧
    (reading (painter .v4) [0b00] 0).work.cur.bit 1 = false := by decide

theorem witness_MonoBlockPixels_FullBlockPixels :
    (painter .v2).frame.blk < (painter .v2).cfg.nb ∧ ({ (painter .v2).frame with blk := 1 }).blk < (painter .v2).cfg.nb ∧
    onPixel (painter .v2).cfg 1 3 3 31 := ⟨by decide, by decide, by decide, by decide, 0, by decide, by decide⟩

/-- WT2's machine is in the invariant. -/
theorem ready_inv : (wt2 []).Inv where
  atPort := rfl
  noWork := rfl
  classed := rfl
  surfForm := List.Pairwise.nil
  palForm := List.Pairwise.nil
  bases := fun _ => ⟨rfl, rfl⟩
  built := fun _ k => by cases k <;> rfl
  sound := fun _ k => by
    cases k
    · exact .inl ⟨rfl, rfl⟩
    · exact .inl ⟨rfl, rfl⟩
    · exact .inl ⟨rfl, rfl⟩
    · exact .inr ⟨rfl, by decide, wt1Shape, [0], by decide, rfl, rfl, fun j => ⟨0, by revert j; decide⟩⟩
  surfGrid := fun _ p hp => by cases hp
  palRange := fun _ p hp => by cases hp
  dirtyOrder := fun _ => List.Pairwise.nil
  dirtyRange := fun _ b hb => by cases hb
  scanRange := fun _ => Nat.zero_le _
  clean := fun h => by rcases h with h | h <;> cases h
  consumed := by decide

theorem witness_LongEnoughFramesComplete : (wt2 []).Inv ∧ (wt2 []).phase = .ready ∧
    (∀ k, (wt2 []).cfg.cap k ≤ 6) ∧ (wt2 []).cfg.nb * (9 * 6 + 2) ≤ 8 * (List.replicate 7 (0 : Byte)).length :=
  ⟨ready_inv, rfl, fun k => by cases k <;> decide, by decide⟩

/-- P1's TYPE tree: one leaf, 0x5503, and markers 0. -/
def p1Code : WordCode :=
  { lo := some (.leaf 0x03), hi := some (.leaf 0x55), mark := ⟨0, 0, 0⟩, tree := .leaf ([], []) }

theorem p1Code_fits : wordTreeFits ((16#32).toNat / 4) (some p1Code) :=
  ⟨⟨by change (1 : Nat) ≤ 511; decide, by change (1 : Nat) ≤ 511; decide, by decide⟩, by decide +kernel⟩

/-- Scenario D: one plane with the single leaf 1, base 0, one delta. -/
def scenarioD : ChunkCode :=
  { st := false, b16 := false, planes := [some (.leaf 1)], left := 0, right := 0, frames := [[[]]] }

theorem scenarioD_legal : scenarioD.legal := by
  refine ⟨rfl, fun t ht => ?_, ?_⟩
  · rw [List.mem_singleton.1 ht]; change (1 : Nat) ≤ 511; decide
  · decide

theorem scenarioD_shown : (Cursor.over [0x29, 0, 0]).shows 0 scenarioD.bits :=
  Cursor.shows_of_all _ _ _ (by decide +kernel)

theorem scenarioD_out : scenarioD.out = [.s8 0x80, .s8 0x81] := by decide +kernel

theorem witness_EmptyBuffersOverrun : (machine .configured 4 4).phase = .configured ∧ (wt2 []).Inv ∧
    (wt2 []).phase = .ready ∧ 0 < (wt2 []).cfg.nb ∧ (wt2 []).wt.typ.empty = false ∧
    ∃ r rest, (wt2 []).wt.typ.nodes = .internal r :: rest :=
  ⟨rfl, ready_inv, rfl, by decide, rfl, 1, _, rfl⟩

-- P1's 76 bits in 9 bytes
theorem witness_EmptyBuffersOverrun_blob :
    wordTreeFits ((0#32).toNat / 4) none ∧ wordTreeFits ((16#32).toNat / 4) (some p1Code) ∧
    (Cursor.over (p1Blob.take 9)).shows 0 (wordTreeBits none ++ wordTreeBits none ++ wordTreeBits none ++
      wordTreeBits (some p1Code)) ∧
    8 * (p1Blob.take 9).length <
      (wordTreeBits none ++ wordTreeBits none ++ wordTreeBits none ++ wordTreeBits (some p1Code)).length :=
  ⟨trivial, p1Code_fits, Cursor.shows_of_all _ _ _ (by decide +kernel), by decide +kernel⟩

/-- The frame of `painter .v2` after `m` block runs over `vid`. -/
def runs (vid : List Byte) (m : Nat) : FrameState :=
  (blockRun (painter .v2).cfg)^[m] (frameStart (painter .v2).wt (painter .v2).surf vid)

theorem witness_EmptyBuffersOverrun_frame : (painter .v2).phase = .ready ∧
    (∀ m, m < 2 → (runs [] m).blk < (painter .v2).cfg.nb) ∧ (runs [] 2).blk = (painter .v2).cfg.nb ∧
    8 * ([] : List Byte).length < (runs [] 2).cur.pos := by decide +kernel

-- Scenario D's 22 bits in 2 bytes
theorem witness_EmptyBuffersOverrun_audio :
    (machine .configured 4 4).cfg.audio[(0#3).toNat]? = some 0xC0000000#32 ∧ scenarioD.legal ∧
    (2#32).toNat = scenarioD.np * (scenarioD.frames.length + 1) ∧
    (Cursor.over [0x29, 0]).shows 0 scenarioD.bits ∧
    8 * ([0x29, 0] : List Byte).length < scenarioD.bits.length :=
  ⟨rfl, scenarioD_legal, by decide, Cursor.shows_of_all _ _ _ (by decide +kernel), by decide +kernel⟩

/-- A frame inside the grid whose next type code is `t`, the stream being `buf`. -/
def coded (t : Half) (buf : List Byte) : FrameState :=
  { (painter .v2).frame with
    wt := { (painter .v2).wt with typ := twoCodes t 0 }, cur := Cursor.over buf }

theorem witness_FrameCoversEveryBlock : (painter .v2).phase = .ready ∧ (runs [0, 0] 2).cur.pos ≤ 8 * 2 ∧
    (∃ t, exec (.decodeFrame [0, 0]) (painter .v2) = .next t ∧ (t.status.code == .ok) = true) ∧
    ((coded 0 [0]).getCode .typ).1.toNat % 4 = 0 ∧ ((coded 1 [0]).getCode .typ).1.toNat % 4 = 1 ∧
    ((coded 0xFE [0]).getCode .typ).1.toNat % 4 = 2 ∧ ((coded 0x5503 [0]).getCode .typ).1.toNat % 4 = 3 ∧
    (painter .v2).cfg.subver = .v2 ∧ (painter .v4).cfg.subver = .v4 ∧ (coded 1 [0]).blk < (painter .v2).cfg.nb :=
  ⟨rfl, by decide +kernel, nextIs_elim (p := fun t => t.status.code == .ok) (by decide +kernel),
    by decide +kernel, by decide +kernel, by decide +kernel, by decide +kernel, rfl, rfl, by decide⟩

/-- The two selector bits after a FULL type code. -/
def selector (buf : List Byte) : Bool × Bool :=
  let c := ((coded 1 buf).getCode .typ).2.cur
  (c.bit c.pos, c.bit (c.pos + 1))

theorem witness_FrameCoversEveryBlock_selectors : selector [0b010] = (true, false) ∧
    selector [0b100] = (false, true) ∧ selector [0b000] = (false, false) := by decide +kernel

theorem witness_FrameWritesItsBlocksOnly : (painter .v2).phase = .ready ∧
    (∃ t, exec (.decodeFrame [0, 0]) (painter .v2) = .next t ∧ (t.status.code == .ok && t.dirty == [0, 1]) = true) ∧
    ∃ u, exec (.decodeFrame [0, 0]) { painter .v2 with surf := { base := .init, cells := [(0, 9)] } } = .next u ∧
      (u.status.code == .ok) = true :=
  ⟨rfl, nextIs_elim (p := fun t => t.status.code == .ok && t.dirty == [0, 1]) (by decide +kernel),
    nextIs_elim (p := fun u => u.status.code == .ok) (by decide +kernel)⟩

theorem witness_FramesForgetEarlierFrames : (painter .v2).phase = .ready ∧
    ∃ t, exec (.decodeFrame [0, 0]) (painter .v2) = .next t ∧ (t.status.code == .ok) = true :=
  ⟨rfl, nextIs_elim (p := fun t => t.status.code == .ok) (by decide +kernel)⟩

theorem witness_BuildTreesReadsTheBlob :
    wordTreeFits ((0#32).toNat / 4) none ∧ wordTreeFits ((16#32).toNat / 4) (some p1Code) ∧
    (Cursor.over p1Blob).shows 0 (wordTreeBits none ++ wordTreeBits none ++ wordTreeBits none ++
      wordTreeBits (some p1Code)) ∧
    (wordTreeBits none ++ wordTreeBits none ++ wordTreeBits none ++ wordTreeBits (some p1Code)).length ≤
      8 * p1Blob.length :=
  ⟨trivial, p1Code_fits, Cursor.shows_of_all _ _ _ (by decide +kernel), by decide +kernel⟩

theorem witness_GetDirtyRectEffect :
    (withDirty 8 8 []).phase = .ready ∧ (∀ b ∈ (withDirty 8 8 [4]).dirty, 0 ≤ b → (withDirty 8 8 [4]).cfg.nb ≤ b) ∧
    3 ∈ (withDirty 8 8 [3]).dirty ∧ (withDirty 8 8 [3]).scan ≤ 3 ∧ 3 < (withDirty 8 8 [3]).cfg.nb ∧
    ∀ b ∈ (withDirty 8 8 [3]).dirty, (withDirty 8 8 [3]).scan ≤ b → 3 ≤ b := by decide

theorem witness_DirtySequenceIsFiniteAndExact : (machine .configured 4 4).Inv ∧ (wt2 []).Inv ∧
    ((machine .configured 4 4).phase = .configured ∨ (machine .configured 4 4).phase = .ready) :=
  ⟨configured_inv, ready_inv, .inl rfl⟩

theorem witness_PalSkipEffect :
    (inChunk 255 4 []).work.palEntry + ((0#7).toNat + 1) ≤ 256 ∧
    256 < (inChunk 255 4 []).work.palEntry + ((1#7).toNat + 1) := by decide

theorem witness_PalCopyEffect :
    (inChunk 0 2 []).work.palLen ≤ (inChunk 0 2 []).work.palPos + 1 ∧
    ¬ (inChunk 193 3 [1, 0x7F, 0]).work.palLen ≤ (inChunk 193 3 [1, 0x7F, 0]).work.palPos + 1 ∧
    256 < (inChunk 193 3 []).work.palEntry + ((63#6).toNat + 1) ∧
    ¬ 256 < (inChunk 192 3 []).work.palEntry + ((63#6).toNat + 1) ∧
    256 < (193#8).toNat + ((63#6).toNat + 1) ∧ ¬ 256 < (192#8).toNat + ((63#6).toNat + 1) := by decide

theorem witness_PalLitEffect : (inChunk 0 3 []).work.palLen ≤ (inChunk 0 3 []).work.palPos + 2 ∧
    ¬ (inChunk 0 4 []).work.palLen ≤ (inChunk 0 4 []).work.palPos + 2 := by decide

/-- The records of R310's example. -/
def pl1Records : List PalRecord := [.lit 0x3F 0x20 0x01, .skip 126, .skip 126, .skip 0]

theorem witness_UnpackPaletteEffect :
    (machine .configured 4 4).phase = .configured ∧ (pl1Records.map PalRecord.span).sum = 256 ∧
    (∀ r ∈ pl1Records, r.legal) ∧
    1 + (pl1Records.flatMap PalRecord.bytes).length ≤ 4 * (2#8).toNat ∧
    4 * (2#8).toNat ≤ ((2#8) :: (pl1Records.flatMap PalRecord.bytes ++ [0])).length := by
  refine ⟨rfl, by decide, fun r hr => ?_, by decide, by decide⟩
  simp only [pl1Records, List.mem_cons, List.not_mem_nil, or_false] at hr
  rcases hr with rfl | rfl | rfl | rfl <;> trivial

theorem witness_PaletteLengthErrors : ([] : List Byte) = [] ∧ ([0] : List Byte).head? = some 0 ∧
    ∃ b, ([1, 2, 3] : List Byte).head? = some b ∧ ([1, 2, 3] : List Byte).length < 4 * b.toNat :=
  ⟨rfl, rfl, 1, rfl, by decide⟩

/-- A palette chunk of the records `rs` and the bytes `rest`, with len = 4, and where its records end. -/
def chunkOf (rs : List PalRecord) (rest : List Byte) : List Byte := 1 :: (rs.flatMap PalRecord.bytes ++ rest)
def chunkPos (rs : List PalRecord) : Nat := 1 + (rs.flatMap PalRecord.bytes).length
def chunkEntry (rs : List PalRecord) : Nat := (rs.map PalRecord.span).sum

theorem witness_PaletteLengthErrors_trunc :
    chunkEntry [.skip 0, .skip 0, .skip 0] < 256 ∧ chunkPos [.skip 0, .skip 0, .skip 0] = 4 ∧
    4 ≤ (chunkOf [.skip 0, .skip 0, .skip 0] []).length ∧
    chunkPos [.skip 0] < 4 ∧ 4 < chunkPos [.skip 0] + (PalRecord.lit 1 2 3).bytes.length ∧
    ([1, 2] : List Byte).head? = (PalRecord.lit 1 2 3).bytes.head? ∧
    4 ≤ (chunkOf [.skip 0] [1, 2]).length := by decide

theorem witness_PaletteLengthErrors_records :
    (PalRecord.skip 127).legal ∧ chunkEntry [.skip 127, .skip 126] = 255 ∧
    chunkPos [.skip 127, .skip 126] + (PalRecord.skip 1).bytes.length ≤ 4 ∧
    4 ≤ (chunkOf [.skip 127, .skip 126] [0x81]).length ∧ (PalRecord.skip 1).bytes <+: [0x81] ∧
    256 < 255 + (PalRecord.skip 1).span ∧
    chunkPos [] + (PalRecord.copy 1 255).bytes.length ≤ 4 ∧ 4 ≤ (chunkOf [] [0x41, 255, 0]).length ∧
    (PalRecord.copy 1 255).bytes <+: [0x41, 255, 0] ∧ chunkEntry [] + (PalRecord.copy 1 255).span ≤ 256 ∧
    ¬ (PalRecord.copy 1 255).legal :=
  ⟨trivial, by decide, by decide, by decide, by decide, by decide, by decide, by decide, by decide, by decide,
    by change ¬ (255 : Nat) + (1 + 1) ≤ 256; decide⟩

theorem witness_AckPaletteEffect :
    (machine .configured 4 4).phase = .configured ∨ (machine .configured 4 4).phase = .ready := .inl rfl

theorem witness_AudioDispatchTable :
    (machine .ready 4 4).phase = .ready ∧ (7#3) = 7 ∧
    (Vector.replicate 7 0x80000000#32)[(6#3).toNat]? = some 0x80000000#32 ∧
    (0x80000000#32).getLsbD 30 = false ∧
    (0x4C000000#32).getLsbD 30 = true ∧ (0x4C000000#32).getLsbD 31 = false ∧ (0x4C000000#32).getLsbD 27 = true ∧
    (0x44000000#32).getLsbD 30 = true ∧ (0x44000000#32).getLsbD 31 = false ∧ (0x44000000#32).getLsbD 27 = false ∧
    (0x44000000#32).getLsbD 26 = true ∧ (0x40000000#32).getLsbD 30 = true ∧ (0x40000000#32).getLsbD 31 = false ∧
    (0x40000000#32).getLsbD 27 = false ∧ (0x40000000#32).getLsbD 26 = false := by decide

theorem witness_AbsentAudio :
    (machine .configured 4 4).cfg.audio[(0#3).toNat]? = some 0xC0000000#32 ∧
    (0xC0000000#32).getLsbD 30 = true ∧ (0xC0000000#32).getLsbD 31 = true ∧
    (([] : List Byte).getD 0 0).getLsbD 0 = false ∧ (([0xFE] : List Byte).getD 0 0).getLsbD 0 = false := by decide

theorem witness_PresentAudioEffect :
    (machine .configured 4 4).cfg.audio[(0#3).toNat]? = some 0xC0000000#32 ∧
    (0xC0000000#32).getLsbD 28 = scenarioD.st ∧ (0xC0000000#32).getLsbD 29 = scenarioD.b16 ∧ scenarioD.legal ∧
    (2#32).toNat = scenarioD.np * (scenarioD.frames.length + 1) ∧
    (Cursor.over [0x29, 0, 0]).shows 0 scenarioD.bits ∧
    scenarioD.bits.length ≤ 8 * ([0x29, 0, 0] : List Byte).length :=
  ⟨rfl, rfl, rfl, scenarioD_legal, by decide, scenarioD_shown, by decide +kernel⟩

theorem witness_AudioHeaderEffects :
    inAudio.cfg.audio[inAudio.work.track.toNat]? = some 0xC0000000#32 ∧
    inAudio.work.unpacked.toNat = scenarioD.np * (scenarioD.frames.length + 1) ∧ inAudio.work.samples = [] ∧
    inAudio.work.cur.shows inAudio.work.cur.pos scenarioD.bits ∧ inAudio.work.cur.ovr = false ∧
    inAudio.work.cur.pos + scenarioD.bits.length ≤ 8 * inAudio.work.cur.buf.length :=
  ⟨rfl, by decide, rfl, scenarioD_shown, rfl, by decide +kernel⟩

theorem witness_AudioChecks :
    (([0x03] : List Byte).getD 0 0).getLsbD 0 = true ∧
    (([0x03] : List Byte).getD 0 0).getLsbD 1 ≠ (0xC0000000#32).getLsbD 28 ∧
    (([0x01] : List Byte).getD 0 0).getLsbD 1 = (0xC0000000#32).getLsbD 28 ∧
    (([0x01] : List Byte).getD 0 0).getLsbD 2 = (0xC0000000#32).getLsbD 29 ∧ (0#32).toNat < 1 := by decide

theorem witness_AudioOutputLength_AudioIsIndependent :
    (([0x29, 0, 0] : List Byte).getD 0 0).getLsbD 0 = true ∧
    ∃ t, exec (.decodeAudio 0 [0x29, 0, 0] 2) (machine .configured 4 4) = .next t ∧ (t.status.code == .ok) = true :=
  ⟨by decide, nextIs_elim (p := fun t => t.status.code == .ok) (by decide +kernel)⟩

theorem witness_ConfigureEffect : State.reset.phase = .unconfigured ∧
    (confOps 0x32).sig = { b0 := 0x53, b1 := 0x4D, b2 := 0x4B, b3 := 0x32 } ∧
    (confOps 0x34).sig = { b0 := 0x53, b1 := 0x4D, b2 := 0x4B, b3 := 0x34 } ∧
    (confOps 0x33).sig ≠ { b0 := 0x53, b1 := 0x4D, b2 := 0x4B, b3 := 0x32 } := by decide

end Sys2Proof.Tests
end

section
/-! PROOFS. CONFIGURE (47_host_interface.md R380, R381): the signatures, the derived registers, the blank
storage spaces, and O60. -/

namespace Sys2Proof.Machine

/-! ### The signature -/

/-- "SMK2". -/
def sigV2 : Sig := { b0 := 0x53, b1 := 0x4D, b2 := 0x4B, b3 := 0x32 }

/-- "SMK4". -/
def sigV4 : Sig := { b0 := 0x53, b1 := 0x4D, b2 := 0x4B, b3 := 0x34 }

@[simp] theorem subVerOf_sigV2 : subVerOf sigV2 = some .v2 := rfl

@[simp] theorem subVerOf_sigV4 : subVerOf sigV4 = some .v4 := rfl

theorem subVerOf_eq_none {sig : Sig} (hv2 : sig ≠ sigV2) (hv4 : sig ≠ sigV4) : subVerOf sig = none := by
  obtain ⟨b0, b1, b2, b3⟩ := sig
  unfold subVerOf
  split
  case isTrue h =>
    obtain ⟨rfl, rfl, rfl⟩ := h
    rw [if_neg (fun h => hv2 (congrArg (Sig.mk _ _ _) h)), if_neg (fun h => hv4 (congrArg (Sig.mk _ _ _) h))]
  case isFalse => rfl

/-! ### CONFIGURE where the phase admits it -/

theorem exec_configure_recognised {ops : ConfigOps} {s : State} {sv : SubVer} (hp : s.phase = .unconfigured)
    (hsig : subVerOf ops.sig = some sv) : exec (.configure ops) s = .next (s.configure ops sv) := by
  change execConfigure ops s = _
  simp [execConfigure, hp, hsig]

theorem exec_configure_badSignature {ops : ConfigOps} {s : State} (hp : s.phase = .unconfigured)
    (hsig : subVerOf ops.sig = none) : exec (.configure ops) s = .next (s.report .badSignature) := by
  change execConfigure ops s = _
  simp [execConfigure, hp, hsig, s.raise_soft (cause := .badSignature) rfl]

/-! ### What the configuration gives -/

/-- D from FLAGS read as a number: FLAGS[2:1] is `FLAGS / 2 % 4`. -/
theorem Cfg.d_eq (g : Cfg) : g.d = if g.flags.toNat / 2 % 4 = 0 then 1 else 2 := by
  have hfield : g.flags.extractLsb' 1 2 = 0 ↔ g.flags.toNat / 2 % 4 = 0 := by
    rw [← BitVec.toNat_inj, BitVec.extractLsb'_toNat, Nat.shiftRight_eq_div_pow]
    rfl
  simp only [Cfg.d, hfield]

/-- A blank space reads as its base says at every index. -/
@[simp] theorem Memory.read_blank {α : Type} (u : Base → Nat → α) (b : Base) (a : Nat) :
    (Memory.blank b).read u a = u b a := rfl

theorem pixelAt_blank_init (a : Nat) : pixelAt (Memory.blank .init) a = Config.initSurface a :=
  Memory.read_blank unlistedPixel .init a

theorem entryAt_blank_init (e : Nat) : entryAt (Memory.blank .init) e = Config.initPalette e :=
  Memory.read_blank unlistedEntry .init e

end Sys2Proof.Machine

namespace Sys2Proof.Proofs

open Sys2Proof.Machine

/-- Settles O60: by the three signature cases, then register by register. -/
theorem configureEffect : Obligations.ConfigureEffect := by
  unfold Obligations.ConfigureEffect
  refine ⟨fun ops s hp => ⟨fun hsig => ?v2, fun hsig => ?v4, fun hv2 hv4 => ?other⟩,
    fun ops sv s => ⟨?d, rfl, rfl, rfl, rfl, rfl, rfl, rfl, ?surface, ?palette⟩⟩
  case v2 => exact exec_configure_recognised hp (by rw [hsig]; exact subVerOf_sigV2)
  case v4 => exact exec_configure_recognised hp (by rw [hsig]; exact subVerOf_sigV4)
  case other => exact exec_configure_badSignature hp (subVerOf_eq_none hv2 hv4)
  case d => exact Cfg.d_eq _
  case surface => exact pixelAt_blank_init
  case palette => exact entryAt_blank_init

end Sys2Proof.Proofs
end

section
/-! PROOFS. The ROM tables (10_state.md R34, R35), the machine after reset (R40, 70_reset_and_hazards.md R440)
and what the host reads of the state (47_host_interface.md R386): O33, O13, O10 and O11. -/

namespace Sys2Proof.Machine

/-! ### The ROM tables -/

theorem runLen_of_le {i : BitVec 6} (h : i.toNat ≤ 58) : runLen i = i.toNat + 1 := if_pos h

theorem runLen_of_gt {i : BitVec 6} (h : 58 < i.toNat) : runLen i = 128 <<< (i.toNat - 59) :=
  if_neg (Nat.not_le.2 h)

/-- An entry of UP6 fits its byte, so no bit of `v·4 + v div 16` is lost. -/
theorem up6_toNat (v : BitVec 6) : (up6 v).toNat = v.toNat * 4 + v.toNat / 16 := by
  have hv : v.toNat < 64 := v.isLt
  have hfits : v.toNat * 4 + v.toNat / 16 < 2 ^ 8 := by omega
  rw [up6, BitVec.toNat_ofNat, Nat.mod_eq_of_lt hfits]

/-! ### The machine after reset -/

theorem reset_wt_get (k : TreeId) : State.reset.wt.get k = unbuiltWordTree := by cases k <;> rfl

theorem step_of_resetPin {s : State} (h : s.resetPin = true) : step s = .next s.afterReset := if_pos h

theorem State.issue_of_idle {s : State} (h : s.port = none) (c : Command) :
    s.issue c = some { s with port := some c } := by
  simp [State.issue, h]

/-- State.reset is in the invariant: nothing runs, no cell is written, no tree is built, no block is dirty. -/
theorem reset_inv : State.reset.Inv where
  atPort := rfl
  noWork := rfl
  classed := rfl
  surfForm := reset_surf_wf
  palForm := reset_pal_wf
  bases := fun _ => ⟨rfl, rfl⟩
  built := fun _ k => by rw [reset_wt_get]; rfl
  sound := fun hready => nomatch hready
  surfGrid := fun _ _ hp => nomatch hp
  palRange := fun _ _ hp => nomatch hp
  dirtyOrder := fun _ => List.Pairwise.nil
  dirtyRange := fun _ _ hb => nomatch hb
  scanRange := fun _ => Nat.zero_le _
  clean := fun _ => rfl
  consumed := ⟨rfl, Nat.zero_le _⟩

/-! ### What the host reads -/

section HostReads

variable {s : State}

theorem State.between_iff : s.between = true ↔ s.port = none := by simp [State.between]

/-- S and PAL are readable between commands, wherever they exist. -/
theorem State.storeReadable_iff : s.storeReadable = true ↔ s.port = none ∧ s.phase ≠ .unconfigured := by
  simp [State.storeReadable, State.between_iff]

theorem State.between_of_waiting {c : Command} (h : s.port = some c) : s.between = false := by
  simp [State.between, h]

theorem State.storeReadable_of_waiting {c : Command} (h : s.port = some c) : s.storeReadable = false := by
  simp [State.storeReadable, State.between_of_waiting h]

theorem State.storeReadable_of_unconfigured (h : s.phase = .unconfigured) : s.storeReadable = false := by
  simp [State.storeReadable, h]

theorem State.readPixel_of_readable (h : s.storeReadable = true) {x y : Nat} (hx : x < s.cfg.w.toNat)
    (hy : y < s.cfg.rows) : s.readPixel x y = some (pixelAt s.surf (pixelAddr s.cfg x y)) := by
  simp [State.readPixel, h, hx, hy]

theorem State.readEntry_of_readable (h : s.storeReadable = true) {e : Nat} (he : e < 256) :
    s.readEntry e = some (entryAt s.pal e) := by
  simp [State.readEntry, h, he]

theorem State.readPalDirty_of_readable (h : s.storeReadable = true) : s.readPalDirty = some s.palDirty :=
  if_pos h

/-- No read of S, PAL or PAL_DIRTY answers where they are not readable. -/
theorem State.storeReads_none (h : s.storeReadable = false) :
    s.readPalDirty = none ∧ ∀ x y, s.readPixel x y = none ∧ s.readEntry x = none := by
  simp [State.readPalDirty, State.readPixel, State.readEntry, h]

end HostReads

end Sys2Proof.Machine

namespace Sys2Proof.Proofs

open Sys2Proof.Machine

/-- Settles O33: RUNLEN by its two ranges, UP6 by the bound of its entries, the numbers cause by cause. -/
theorem constantTables : Obligations.ConstantTables :=
  ⟨fun _ => runLen_of_le,
    runLen_of_gt (by decide), runLen_of_gt (by decide), runLen_of_gt (by decide), runLen_of_gt (by decide),
    runLen_of_gt (by decide), up6_toNat, rfl, rfl, rfl⟩

/-- Settles O13. -/
theorem resetHasInvariant : Obligations.ResetHasInvariant := reset_inv

/-- Settles O10: the fields of State.reset, and the step that finds the reset input set. -/
theorem resetInputResets : Obligations.ResetInputResets := by
  refine ⟨rfl, rfl, fun k => ?built, rfl, State.storeReadable_of_unconfigured rfl, fun c => ?issue,
    fun s hpin => ⟨s.afterReset, step_of_resetPin hpin, rfl⟩⟩
  case built => rw [reset_wt_get]; rfl
  case issue => rw [State.issue_of_idle rfl]; rfl

/-- Settles O11: by whether a command stands at the port and whether the storage spaces are readable. -/
theorem hostReadsBetweenCommands : Obligations.HostReadsBetweenCommands := by
  refine fun s => ⟨fun hidle => ?fields, fun c hc => ?waiting, fun hidle hopen => ?store,
    fun hunconf => State.storeReads_none (State.storeReadable_of_unconfigured hunconf)⟩
  case fields =>
    have h : s.between = true := State.between_iff.2 hidle
    exact ⟨if_pos h, if_pos h, if_pos h, if_pos h, if_pos h⟩
  case waiting =>
    have h : ¬ s.between = true := by simp [State.between_of_waiting hc]
    obtain ⟨hpalDirty, hcells⟩ := State.storeReads_none (State.storeReadable_of_waiting hc)
    exact ⟨if_neg h, if_neg h, hpalDirty, if_neg h, if_neg h, if_neg h, hcells⟩
  case store =>
    have hphase : s.phase ≠ .unconfigured := by rcases hopen with h | h <;> simp [h]
    have h : s.storeReadable = true := State.storeReadable_iff.2 ⟨hidle, hphase⟩
    exact ⟨State.readPalDirty_of_readable h, fun _ he => State.readEntry_of_readable h he,
      fun _ _ hx hy => State.readPixel_of_readable h hx hy⟩

end Sys2Proof.Proofs
end

section
/-! PROOFS. The decoder and the encoder (30_encoding.md) and the step that fetches from the port: the fields of type
codes, palette control bytes and command words, and O1 to O6. -/

namespace Sys2Proof

/-- A field of a word, read as a number. -/
theorem toNat_field {w : Nat} (x : BitVec w) (start len : Nat) :
    (x.extractLsb' start len).toNat = x.toNat / 2 ^ start % 2 ^ len := by
  rw [BitVec.extractLsb'_toNat, Nat.shiftRight_eq_div_pow]

/-- Bits put side by side, read as a number. -/
theorem toNat_append_eq {m n : Nat} (hi : BitVec m) (lo : BitVec n) :
    (hi ++ lo).toNat = hi.toNat * 2 ^ n + lo.toNat := by
  rw [BitVec.toNat_append, ← Nat.shiftLeft_add_eq_or_of_lt lo.isLt, Nat.shiftLeft_eq]

/-! ### Type codes (R102, R103) -/

section TypeCode

variable (kind : BitVec 2) (runidx : BitVec 6) (color : Byte)

theorem packTypeCode_toNat :
    (packTypeCode kind runidx color).toNat = color.toNat * 256 + runidx.toNat * 4 + kind.toNat := by
  rw [packTypeCode, toNat_append_eq, toNat_append_eq]
  omega

@[simp] theorem packTypeCode_kind : (packTypeCode kind runidx color).extractLsb' 0 2 = kind := by
  rw [packTypeCode, BitVec.extractLsb'_append_eq_of_add_le (by decide), BitVec.extractLsb'_append_eq_right]

@[simp] theorem packTypeCode_runidx : (packTypeCode kind runidx color).extractLsb' 2 6 = runidx := by
  rw [packTypeCode, BitVec.extractLsb'_append_eq_of_add_le (by decide), BitVec.extractLsb'_append_eq_left]

@[simp] theorem packTypeCode_color : (packTypeCode kind runidx color).extractLsb' 8 8 = color :=
  BitVec.extractLsb'_append_eq_left

/-- A type code is its three fields. -/
theorem exists_packTypeCode (t : Half) : ∃ kind runidx color, t = packTypeCode kind runidx color := by
  refine ⟨t.extractLsb' 0 2, t.extractLsb' 2 6, t.extractLsb' 8 8, BitVec.eq_of_toNat_eq ?_⟩
  have := t.isLt
  simp only [packTypeCode_toNat, toNat_field]
  omega

@[simp] theorem decodeTypeCode_mono : decodeTypeCode (packTypeCode 0 runidx color) = .blkMono runidx color := by
  simp [decodeTypeCode]

@[simp] theorem decodeTypeCode_full : decodeTypeCode (packTypeCode 1 runidx color) = .blkFull runidx color := by
  simp [decodeTypeCode]

@[simp] theorem decodeTypeCode_skip : decodeTypeCode (packTypeCode 2 runidx color) = .blkSkip runidx color := by
  simp [decodeTypeCode]

@[simp] theorem decodeTypeCode_fill : decodeTypeCode (packTypeCode 3 runidx color) = .blkFill runidx color := by
  simp [decodeTypeCode]

end TypeCode

/-- KIND has four values. -/
theorem kind_cases (kind : BitVec 2) : kind = 0 ∨ kind = 1 ∨ kind = 2 ∨ kind = 3 := by
  revert kind
  decide

/-- KIND of a code, as a number. -/
theorem kind_toNat (kind : BitVec 2) (runidx : BitVec 6) (color : Byte) :
    (packTypeCode kind runidx color).toNat % 4 = kind.toNat := by
  have := kind.isLt
  rw [packTypeCode_toNat]
  omega

/-- Every code is the encoding of what it decodes to. -/
theorem encode_decodeTypeCode (t : Half) : encode (decodeTypeCode t) = some (.typeCode t) := by
  obtain ⟨kind, runidx, color, rfl⟩ := exists_packTypeCode t
  rcases kind_cases kind with rfl | rfl | rfl | rfl
  · rw [decodeTypeCode_mono]; rfl
  · rw [decodeTypeCode_full]; rfl
  · rw [decodeTypeCode_skip]; rfl
  · rw [decodeTypeCode_fill]; rfl

/-! ### Palette control bytes (R107) -/

section PalByte

variable {ctl : Byte}

theorem decodePalByte_skip (h : 128 ≤ ctl.toNat) : decodePalByte ctl = .palSkip (ctl.extractLsb' 0 7) := by
  have h7 : ctl.getLsbD 7 = true := by
    rw [BitVec.getLsbD, Nat.testBit_eq_decide_div_mod_eq, decide_eq_true_eq]
    omega
  rw [decodePalByte, if_pos h7]

/-- Below 128 bit 7 is 0, and bit 6 decides. -/
theorem decodePalByte_low (h : ctl.toNat < 128) : decodePalByte ctl =
    if 64 ≤ ctl.toNat then .palCopy (ctl.extractLsb' 0 6) else .palLit (ctl.extractLsb' 0 6) := by
  have h7 : ¬ ctl.getLsbD 7 = true := by
    rw [BitVec.getLsbD, Nat.testBit_eq_decide_div_mod_eq, decide_eq_true_eq]
    omega
  have h6 : ctl.getLsbD 6 = true ↔ 64 ≤ ctl.toNat := by
    rw [BitVec.getLsbD, Nat.testBit_eq_decide_div_mod_eq, decide_eq_true_eq]
    omega
  simp only [decodePalByte, if_neg h7, h6]

theorem decodePalByte_copy (h : 64 ≤ ctl.toNat) (h' : ctl.toNat < 128) :
    decodePalByte ctl = .palCopy (ctl.extractLsb' 0 6) := by
  rw [decodePalByte_low h', if_pos h]

theorem decodePalByte_lit (h : ctl.toNat < 64) : decodePalByte ctl = .palLit (ctl.extractLsb' 0 6) := by
  rw [decodePalByte_low (by omega), if_neg (by omega)]

end PalByte

/-! ### Command words (R91, R95) -/

theorem reservedWord_iff (cmd : Word) :
    reservedWord cmd = true ↔ cmd.toNat % 256 = 0 ∨ 8 ≤ cmd.toNat % 256 ∨ 256 ≤ cmd.toNat := by
  have hopc : (cmd.extractLsb' 0 8).toNat = cmd.toNat % 256 := by simp
  have hhigh : (cmd.extractLsb' 8 24).toNat = cmd.toNat / 256 := by
    have := cmd.isLt
    rw [toNat_field]
    omega
  have hlt := cmd.isLt
  simp only [reservedWord, Bool.or_eq_true, beq_iff_eq, bne_iff_ne, decide_eq_true_eq, ne_eq,
    ← BitVec.toNat_inj, hopc, hhigh, BitVec.toNat_ofNat]
  omega

theorem decodeCommand_reserved {c : Command} (h : reservedWord c.cmd = true) :
    decodeCommand c = .reservedCmd c.cmd := by
  rw [decodeCommand, if_pos h]

/-- The command of an OPC that is not reserved (R91). -/
def commandOf (ops : OperandRecord) : Nat → Instr
  | 1 => .configure ops.conf
  | 2 => .buildTrees ops.buf
  | 3 => .decodeFrame ops.buf
  | 4 => .unpackPalette ops.buf
  | 5 => .decodeAudio ops.track ops.buf ops.unpacked
  | 6 => .getDirtyRect
  | _ => .ackPalette

/-- Outside the reserved words the number of the word is its OPC, and OPC selects the command. -/
theorem decodeCommand_opc {c : Command} (h : 1 ≤ c.cmd.toNat) (h' : c.cmd.toNat ≤ 7) :
    decodeCommand c = commandOf c.ops c.cmd.toNat := by
  have hword : reservedWord c.cmd = false := by
    rw [Bool.eq_false_iff, Ne, reservedWord_iff]
    omega
  have hopc : (c.cmd.extractLsb' 0 8).toNat = c.cmd.toNat := by
    rw [toNat_field]
    omega
  rw [decodeCommand, hword, hopc]
  generalize c.cmd.toNat = n at h h'
  interval_cases n <;> rfl

theorem decode_commandWord {n : Nat} (h : 1 ≤ n) (h' : n ≤ 7) (ops : OperandRecord) :
    decode (commandWord n ops) = .ok (commandOf ops n) := by
  have hn : (BitVec.ofNat 32 n).toNat = n := by rw [BitVec.toNat_ofNat]; omega
  rw [commandWord, decode, decodeCommand_opc (by rw [hn]; exact h) (by rw [hn]; exact h'), hn]

/-- Words 2 to 5 take a buffer, which must fit a u32 LEN. -/
theorem decodeCommand_wf_of_buffer {c : Command} (h : 2 ≤ c.cmd.toNat) (h' : c.cmd.toNat ≤ 5) :
    (decodeCommand c).wf = bufferFits c.ops.buf := by
  rw [decodeCommand_opc (by omega) (by omega)]
  generalize c.cmd.toNat = n at h h'
  interval_cases n <;> rfl

namespace Machine

/-- Bits 7:6 of a literal's G and B bytes do not reach its colour. -/
theorem literalColour_congr (r : BitVec 6) {g b g' b' : Byte} (hg : g.toNat % 64 = g'.toNat % 64)
    (hb : b.toNat % 64 = b'.toNat % 64) : literalColour r g b = literalColour r g' b' := by
  have low6 : ∀ x y : Byte, x.toNat % 64 = y.toNat % 64 → x.extractLsb' 0 6 = y.extractLsb' 0 6 := fun x y h =>
    BitVec.eq_of_toNat_eq (by simpa [toNat_field] using h)
  rw [literalColour, literalColour, low6 g g' hg, low6 b b' hb]

/-! ### The step at the command port (R90, R92) -/

section StepAtPort

variable {s : State} {c : Command}

theorem fetch_command (hx : s.expect = .command) (hp : s.port = some c) : s.fetch = .found (.command c) := by
  simp [State.fetch, hx, hp]

theorem fetch_idle (hx : s.expect = .command) (hp : s.port = none) : s.fetch = .idle := by
  simp [State.fetch, hx, hp]

theorem step_found {e : Encoded} (hr : s.resetPin = false) (hf : s.fetch = .found e) :
    step s = execEncoded e s.taken := by
  simp [step, hr, hf]

theorem step_idle (hr : s.resetPin = false) (hf : s.fetch = .idle) : step s = .next s := by
  simp [step, hr, hf]

theorem execEncoded_of_decode {e : Encoded} {i : Instr} (hd : decode e = .ok i) :
    execEncoded e s = execWellFormed i s := by
  simp [execEncoded, hd]

theorem execWellFormed_of_wf {i : Instr} (hw : i.wf = true) : execWellFormed i s = exec i s := if_pos hw

theorem execWellFormed_of_not_wf {i : Instr} (hw : i.wf = false) : execWellFormed i s = .fault .operandTooLong :=
  if_neg (by simp [hw])

/-- A machine that looks at the port already is not changed by the sequencer's taking a command. -/
theorem State.taken_of_command (hx : s.expect = .command) : s.taken = s := by
  rw [State.taken, ← hx]

end StepAtPort

theorem exec_reservedCmd (cmd : Word) (s : State) : exec (.reservedCmd cmd) s = .next (s.report .illegalCommand) :=
  rfl

end Machine

end Sys2Proof

namespace Sys2Proof.Proofs

open Sys2Proof.Machine

/-- Settles O1: a command word decodes by its OPC, a reserved word to itself, a type code and a palette byte give back
the fields they were packed from, and the selectors of the bitstream are constant patterns. -/
theorem decodeEncodeAgree : Obligations.DecodeEncodeAgree := by
  intro i e hwf he
  cases i
  case reservedCmd cmd => cases he; exact congrArg Except.ok (decodeCommand_reserved hwf)
  case blkMono r c => cases he; exact congrArg Except.ok (decodeTypeCode_mono r c)
  case blkFull r c => cases he; exact congrArg Except.ok (decodeTypeCode_full r c)
  case blkSkip r c => cases he; exact congrArg Except.ok (decodeTypeCode_skip r c)
  case blkFill r c => cases he; exact congrArg Except.ok (decodeTypeCode_fill r c)
  case palSkip n =>
    cases he
    have hbyte : 128 ≤ (1#1 ++ n : Byte).toNat := by rw [toNat_append_eq]; simp
    exact congrArg Except.ok ((decodePalByte_skip hbyte).trans (by rw [BitVec.extractLsb'_append_eq_right]))
  case palCopy n =>
    cases he
    have hbyte : (1#2 ++ n : Byte).toNat = 64 + n.toNat := by rw [toNat_append_eq]; simp
    have hn := n.isLt
    exact congrArg Except.ok ((decodePalByte_copy (by omega) (by omega)).trans
      (by rw [BitVec.extractLsb'_append_eq_right]))
  case palLit r =>
    cases he
    have hbyte : (0#2 ++ r : Byte).toNat < 64 := by rw [toNat_append_eq]; simpa using r.isLt
    exact congrArg Except.ok ((decodePalByte_lit hbyte).trans (by rw [BitVec.extractLsb'_append_eq_right]))
  case configure => cases he; exact decode_commandWord (n := 1) (by decide) (by decide) _
  case buildTrees => cases he; exact decode_commandWord (n := 2) (by decide) (by decide) _
  case decodeFrame => cases he; exact decode_commandWord (n := 3) (by decide) (by decide) _
  case unpackPalette => cases he; exact decode_commandWord (n := 4) (by decide) (by decide) _
  case decodeAudio => cases he; exact decode_commandWord (n := 5) (by decide) (by decide) _
  case getDirtyRect => cases he; exact decode_commandWord (n := 6) (by decide) (by decide) _
  case ackPalette => cases he; exact decode_commandWord (n := 7) (by decide) (by decide) _
  all_goals cases he <;> rfl

/-- Settles O2: a code is its three fields; codes of one KIND and RUNIDX have one meaning where COLOR is not read. -/
theorem typeCodeFields : Obligations.TypeCodeFields := by
  refine ⟨fun t => ?fields, fun t => ⟨_, rfl, encode_decodeTypeCode t⟩, fun t u i j s htu hkind hi hj => ?color⟩
  case fields =>
    obtain ⟨kind, r, c, rfl⟩ := exists_packTypeCode t
    have hk : (packTypeCode kind r c).toNat % 4 = kind.toNat := kind_toNat kind r c
    have hr := r.isLt
    have hkind := kind.isLt
    refine ⟨r, c, by rw [packTypeCode_toNat]; omega, by rw [packTypeCode_toNat]; omega, ?_⟩
    rw [hk]
    rcases kind_cases kind with rfl | rfl | rfl | rfl
    · exact ⟨fun _ => congrArg Except.ok (decodeTypeCode_mono r c), nofun, nofun, nofun⟩
    · exact ⟨nofun, fun _ => congrArg Except.ok (decodeTypeCode_full r c), nofun, nofun⟩
    · exact ⟨nofun, nofun, fun _ => congrArg Except.ok (decodeTypeCode_skip r c), nofun⟩
    · exact ⟨nofun, nofun, nofun, fun _ => congrArg Except.ok (decodeTypeCode_fill r c)⟩
  case color =>
    obtain ⟨kind, r, c, rfl⟩ := exists_packTypeCode t
    obtain ⟨kind', r', c', rfl⟩ := exists_packTypeCode u
    cases hi
    cases hj
    rw [kind_toNat] at hkind
    rw [packTypeCode_toNat, packTypeCode_toNat] at htu
    have hk := kind.isLt
    have hk' := kind'.isLt
    have hr := r.isLt
    have hr' := r'.isLt
    obtain rfl : kind = kind' := BitVec.eq_of_toNat_eq (by omega)
    obtain rfl : r = r' := BitVec.eq_of_toNat_eq (by omega)
    rcases kind_cases kind with rfl | rfl | rfl | rfl
    · rw [decodeTypeCode_mono, decodeTypeCode_mono]; rfl
    · rw [decodeTypeCode_full, decodeTypeCode_full]; rfl
    · rw [decodeTypeCode_skip, decodeTypeCode_skip]; rfl
    · exact absurd rfl hkind

/-- Settles O3: by the three ranges of the control byte. -/
theorem paletteControlByteFields : Obligations.PaletteControlByteFields := by
  refine ⟨fun ctl => ⟨fun h => ?skip, fun ⟨h, h'⟩ => ?copy, fun h => ?lit⟩,
    fun r g b g' b' hg hb => literalColour_congr r hg hb⟩
  case skip => exact ⟨_, toNat_field ctl 0 7 |>.trans (by simp), congrArg Except.ok (decodePalByte_skip h)⟩
  case copy => exact ⟨_, toNat_field ctl 0 6 |>.trans (by simp), congrArg Except.ok (decodePalByte_copy h h')⟩
  case lit =>
    exact ⟨_, toNat_field ctl 0 6 |>.trans (by simpa using Nat.mod_eq_of_lt h),
      congrArg Except.ok (decodePalByte_lit h)⟩

/-- Settles O4: each word is a constant. -/
theorem decodedWordsAreRight : Obligations.DecodedWordsAreRight := by
  unfold Obligations.DecodedWordsAreRight
  decide

/-- Settles O5: what is fetched is decoded and, being well-formed, executed; a buffer longer than LEN can say is not. -/
theorem stepRunsTheDecodedInstruction : Obligations.StepRunsTheDecodedInstruction := by
  refine ⟨fun s e i hr hf hd hw => ?runs, fun s c => fetch_command, fun s hr hx hp => step_idle hr (fetch_idle hx hp),
    fun s c hr hx hp h2 h5 hlong => ?long⟩
  case runs => rw [step_found hr hf, execEncoded_of_decode hd, execWellFormed_of_wf hw, State.taken]
  case long =>
    have hw : (decodeCommand c).wf = false := by
      rw [decodeCommand_wf_of_buffer h2 h5, bufferFits, decide_eq_false (Nat.not_lt.2 hlong)]
    rw [step_found hr (fetch_command hx hp), execEncoded_of_decode rfl, execWellFormed_of_not_wf hw]

/-- Settles O6: the meaning of RESERVED_CMD, and the step that decodes a reserved word to it. -/
theorem reservedCommandsAreIllegal : Obligations.ReservedCommandsAreIllegal := by
  refine ⟨exec_reservedCmd, fun c s hr hx hp hres => ?_⟩
  have hword : reservedWord c.cmd = true := (reservedWord_iff c.cmd).2 hres
  have hd : decode (.command c) = .ok (.reservedCmd c.cmd) := congrArg Except.ok (decodeCommand_reserved hword)
  rw [step_found hr (fetch_command hx hp), execEncoded_of_decode hd,
    execWellFormed_of_wf (i := .reservedCmd c.cmd) hword, exec_reservedCmd, State.taken_of_command hx]
  rfl

end Sys2Proof.Proofs
end

section
/-! PROOFS. What a stream shows (30_encoding.md R97) and what the cursor reads of it; the node array and the
table PFX of a code tree (41_byte_tree.md R171 to R175). -/

namespace Sys2Proof.Machine

/-! ### Fields of the stream -/

section Cursor

/-- After an advance OVR says whether the cursor stands past the end. -/
theorem Cursor.skip_fair (c : Cursor) (n : Nat) : (c.skip n).fair := by
  intro h
  simp only [Cursor.skip_len, Cursor.skip_pos] at h
  simp [h]

theorem Cursor.over_fair (buf : List Byte) : (Cursor.over buf).fair := fun h => absurd h (Nat.not_lt_zero _)

/-- An advance by nothing changes no fair cursor. -/
theorem Cursor.skip_zero {c : Cursor} (h : c.fair) : c.skip 0 = c := by
  obtain ⟨buf, pos, ovr⟩ := c
  have hovr : (ovr || decide (8 * buf.length < pos)) = ovr := by
    by_cases hlt : 8 * buf.length < pos
    · have : ovr = true := h hlt
      simp [this]
    · simp [hlt]
  simpa [Cursor.skip, Cursor.overrun, Cursor.len] using hovr

@[simp] theorem fixed_length (bs : List Bool) : (fixed bs).length = bs.length := List.length_map _

@[simp] theorem fixed_append (as bs : List Bool) : fixed (as ++ bs) = fixed as ++ fixed bs := List.map_append

/-- An advance does not change the stream. -/
@[simp] theorem Cursor.skip_shows (c : Cursor) (n p : Nat) (pat : Pattern) :
    (c.skip n).shows p pat ↔ c.shows p pat := Iff.rfl

/-- Where the stream shows the low bits of a number, the field reads it. -/
theorem Cursor.field_of_shows {c : Cursor} {p n v : Nat} (hv : v < 2 ^ n)
    (h : c.shows p (fixed ((List.range n).map v.testBit))) : c.field p n = v := by
  apply Nat.eq_of_testBit_eq
  intro k
  rw [Cursor.field_testBit]
  by_cases hk : k < n
  · rw [h k (v.testBit k) (by simp [fixed, hk])]
    simp [hk]
  · rw [Nat.testBit_lt_two_pow (lt_of_lt_of_le hv (Nat.pow_le_pow_right (by decide) (Nat.not_lt.1 hk)))]
    simp [hk]

theorem Cursor.readByte_of_shows {c : Cursor} {v : Byte} (h : c.shows c.pos (fixed (byteBits v))) :
    c.readByte = (v, c.skip 8) := by
  have hv : c.field c.pos 8 = v.toNat := Cursor.field_of_shows v.isLt h
  exact Prod.ext (by simp [Cursor.readByte, Cursor.readBits, hv]) rfl

theorem Cursor.readHalf_of_shows {c : Cursor} {v : Half} (h : c.shows c.pos (fixed (halfBits v))) :
    c.readHalf = (v, c.skip 16) := by
  have hv : c.field c.pos 16 = v.toNat := Cursor.field_of_shows v.isLt h
  exact Prod.ext (by simp [Cursor.readHalf, Cursor.readBits, hv]) rfl

@[simp] theorem byteBits_length (v : Byte) : (byteBits v).length = 8 := by simp [byteBits]

@[simp] theorem halfBits_length (v : Half) : (halfBits v).length = 16 := by simp [halfBits]

end Cursor

/-! ### The nodes of a code tree -/

namespace CodeTree

variable {α β : Type} {w : Nat}

theorem count_pos (t : CodeTree α) : 0 < t.count := by cases t <;> simp [count]

@[simp] theorem cells_length (t : CodeTree (BitVec w)) : t.cells.length = t.count := by
  induction t with
  | leaf v => rfl
  | fork l r ihl ihr => simp [cells, count, ihl, ihr]

@[simp] theorem count_map (f : α → β) (t : CodeTree α) : (t.map f).count = t.count := by
  induction t with
  | leaf v => rfl
  | fork l r ihl ihr => simp [map, count, ihl, ihr]

/-- The table does not depend on the labels. -/
@[simp] theorem entry_map (f : α → β) (k : Nat) (t : CodeTree α) : ∀ i d,
    (t.map f).entry k i d = t.entry k i d := by
  induction t with
  | leaf v => intro i d; rfl
  | fork l r ihl ihr => intro i d; simp [map, entry, ihl, ihr]

@[simp] theorem table_map (f : α → β) (t : CodeTree α) : (t.map f).table = t.table := by simp [table]

end CodeTree

/-! ### PFX after a construction (R172, R173) -/

section PrefixTable

variable {α : Type}

/-- The table after the nodes of `t` were built from the node of index `i` at depth `len` with code bits
`code`: entry `k` is that of the leaf its bits lead to, where they pass through this node. -/
def pfxAfter (t : CodeTree α) (code len i : Nat) (pfx : List PfxEntry) : List PfxEntry :=
  pfx.mapIdx fun k e => if len ≤ 8 ∧ k % 2 ^ len = code then (t.entry k i len).getD e else e

theorem pfxAfter_getElem? (t : CodeTree α) (code len i : Nat) (pfx : List PfxEntry) (k : Nat) :
    (pfxAfter t code len i pfx)[k]? =
      pfx[k]?.map fun e => if len ≤ 8 ∧ k % 2 ^ len = code then (t.entry k i len).getD e else e := by
  simp [pfxAfter]

theorem pfxAfter_leaf (v : α) (code len i : Nat) (pfx : List PfxEntry) :
    pfxAfter (.leaf v) code len i pfx = fillPfx code len i pfx := by
  apply List.ext_getElem?
  intro k
  rw [pfxAfter_getElem?, fillPfx]
  by_cases hlen : len ≤ 8
  · simp [fillPfxFrom_getElem?, hlen, CodeTree.entry]
  · simp [hlen]

theorem mod_two_pow_succ (k n : Nat) : k % 2 ^ (n + 1) = k % 2 ^ n + if k.testBit n then 2 ^ n else 0 := by
  rw [Nat.mod_pow_succ, Nat.testBit_eq_decide_div_mod_eq]
  rcases Nat.mod_two_eq_zero_or_one (k / 2 ^ n) with h | h <;> simp [h]

/-- Where codes are kept, the right child's code is the node's with bit `len` set. -/
theorem rightCode_eq {code len : Nat} (hlen : len < 8) (hcode : code < 2 ^ len) :
    rightCode code len = 2 ^ len + code := by
  rw [rightCode, if_pos hlen, Nat.or_comm, ← Nat.shiftLeft_add_eq_or_of_lt hcode, Nat.one_shiftLeft]

/-- The code bits of a node fit its depth, as long as they are kept. -/
theorem rightCode_lt {code len : Nat} (hcode : len ≤ 8 → code < 2 ^ len) (hlen : len + 1 ≤ 8) :
    rightCode code len < 2 ^ (len + 1) := by
  have := hcode (by omega)
  rw [rightCode_eq (by omega) this, Nat.pow_succ]
  omega

theorem leftCode_lt {code len : Nat} (hcode : len ≤ 8 → code < 2 ^ len) (hlen : len + 1 ≤ 8) :
    code < 2 ^ (len + 1) := by
  have := hcode (by omega)
  rw [Nat.pow_succ]
  omega

/-- An internal node's table is its left subtree's, then its right subtree's. -/
theorem pfxAfter_fork (l r : CodeTree α) {code len : Nat} (hcode : len ≤ 8 → code < 2 ^ len) (i : Nat)
    (pfx : List PfxEntry) :
    pfxAfter r (rightCode code len) (len + 1) (i + 1 + l.count) (pfxAfter l code (len + 1) (i + 1) pfx) =
      pfxAfter (.fork l r) code len i pfx := by
  apply List.ext_getElem?
  intro k
  simp only [pfxAfter_getElem?, Option.map_map]
  refine congrArg (fun f => Option.map f pfx[k]?) (funext fun e => ?_)
  by_cases hlen : len < 8
  · have hc := hcode (by omega)
    have hle : len ≤ 8 := by omega
    have hle' : len + 1 ≤ 8 := hlen
    have hk : k % 2 ^ len < 2 ^ len := Nat.mod_lt _ (by positivity)
    simp only [Function.comp, CodeTree.entry, rightCode_eq hlen hc, mod_two_pow_succ, hlen, hle, hle', if_true,
      true_and]
    cases k.testBit len
    · have hright : k % 2 ^ len ≠ 2 ^ len + code := by omega
      simp [hright]
    · have hleft : k % 2 ^ len + 2 ^ len ≠ code := by omega
      have hright : k % 2 ^ len + 2 ^ len = 2 ^ len + code ↔ k % 2 ^ len = code := by omega
      simp [hleft, hright]
  · have : ¬ len + 1 ≤ 8 := by omega
    simp [this, CodeTree.entry, hlen]

theorem pfxAfter_zeroPfx (t : CodeTree α) : pfxAfter t 0 0 0 zeroPfx = t.table := by
  apply List.ext_getElem?
  intro k
  rw [pfxAfter_getElem?, zeroPfx, CodeTree.table]
  generalize 256 = n
  by_cases hk : k < n
  · simp [hk, Nat.mod_one]
  · simp [hk]

end PrefixTable

/-! ### The leaf a code leads to (R176, R177) -/

namespace CodeTree

variable {α : Type} {w : Nat}

/-- The leaf a code leads to stands at its place. -/
theorem cells_place {t : CodeTree (BitVec w)} : ∀ {bs : List Bool} {v : BitVec w}, t.find bs = some v →
    t.cells[t.place bs]? = some (.leaf v) := by
  induction t with
  | leaf u =>
    intro bs v h
    cases bs with
    | nil => cases h; rfl
    | cons b bs => cases h
  | fork l r ihl ihr =>
    intro bs v h
    cases bs with
    | nil => cases h
    | cons b bs =>
      cases b with
      | false =>
        have hl := ihl h
        have hlt : l.place bs < l.cells.length := (List.getElem?_eq_some_iff.1 hl).1
        simp [cells, place, List.getElem?_append_left hlt, hl]
      | true =>
        have hr := ihr h
        simp only [cells, place]
        rw [show r.place bs + 1 + l.count = (l.count + r.place bs) + 1 by omega, List.getElem?_cons_succ,
          List.getElem?_append_right (by simp)]
        simpa using hr

/-- The entry of a peek that shows a code, at a node of depth `d`: the code's leaf where the code ends by depth 8. -/
theorem entry_of_find {k : Nat} {t : CodeTree α} : ∀ {bs : List Bool} {v : α} {i d : Nat}, t.find bs = some v →
    d ≤ 8 → (∀ j b, bs[j]? = some b → d + j < 8 → k.testBit (d + j) = b) →
    t.entry k i d = if d + bs.length ≤ 8 then some { node := i + t.place bs, len := d + bs.length } else none := by
  induction t with
  | leaf u =>
    intro bs v i d h hd hk
    cases bs with
    | nil => simp [entry, place, hd]
    | cons b bs => cases h
  | fork l r ihl ihr =>
    intro bs v i d h hd hk
    cases bs with
    | nil => cases h
    | cons b bs =>
      by_cases hlt : d < 8
      · have hb : k.testBit d = b := hk 0 b rfl hlt
        have htail : ∀ j b', bs[j]? = some b' → d + 1 + j < 8 → k.testBit (d + 1 + j) = b' := fun j b' hj hlt' => by
          rw [show d + 1 + j = d + (j + 1) by omega]
          exact hk (j + 1) b' (by simpa using hj) (by omega)
        have hlen : d + 1 + bs.length = d + (b :: bs).length := by simp; omega
        cases b with
        | false =>
          rw [entry, if_pos hlt, hb, if_neg (by decide), ihl h hlt htail, hlen]
          simp only [place, show i + 1 + l.place bs = i + (l.place bs + 1) by omega]
        | true =>
          rw [entry, if_pos hlt, hb, if_pos rfl, ihr h hlt htail, hlen]
          simp only [place, show i + 1 + l.count + r.place bs = i + (r.place bs + 1 + l.count) by omega]
      · rw [entry, if_neg hlt, if_neg (by simp; omega)]

end CodeTree

/-- Where `t`'s cells stand in the array from index `p` on, and the stream shows a code of it, the walk takes the
code's bits and ends at its leaf. -/
theorem walkFrom_of_find {w : Nat} {t : CodeTree (BitVec w)} : ∀ {bs : List Bool} {v : BitVec w} {nodes : List (Node w)}
    {fuel p m : Nat} {c : Cursor}, t.find bs = some v → (∀ i, i < t.count → nodes[p + i]? = t.cells[i]?) →
    t.count ≤ fuel → c.shows (c.pos + m) (fixed bs) →
    walkFrom fuel nodes (c.skip m) p = (p + t.place bs, c.skip (m + bs.length)) := by
  induction t with
  | leaf u =>
    intro bs v nodes fuel p m c h hcells hfuel hs
    cases bs with
    | nil =>
      have hp : nodes[p]? = some (.leaf u) := hcells 0 Nat.one_pos
      exact walkFrom_leaf (v := u) _ _ (by rw [nodeAt, List.getD_eq_getElem?_getD, hp]; rfl)
    | cons b bs => cases h
  | fork l r ihl ihr =>
    intro bs v nodes fuel p m c h hcells hfuel hs
    cases bs with
    | nil => cases h
    | cons b bs =>
      have hp : nodeAt nodes p = .internal l.count := by
        have hp : nodes[p]? = some (.internal l.count) := hcells 0 (Nat.succ_pos _)
        rw [nodeAt, List.getD_eq_getElem?_getD, hp]; rfl
      have hleft : ∀ i, i < l.count → nodes[p + 1 + i]? = l.cells[i]? := fun i hi => by
        rw [show p + 1 + i = p + (i + 1) by omega, hcells (i + 1) (by simp [CodeTree.count]; omega), CodeTree.cells,
          List.getElem?_cons_succ, List.getElem?_append_left (by simpa using hi)]
      have hright : ∀ i, i < r.count → nodes[p + 1 + l.count + i]? = r.cells[i]? := fun i hi => by
        rw [show p + 1 + l.count + i = p + (l.count + i + 1) by omega,
          hcells (l.count + i + 1) (by simp [CodeTree.count]; omega), CodeTree.cells, List.getElem?_cons_succ,
          List.getElem?_append_right (by simp)]
        simp
      obtain ⟨fuel, rfl⟩ : ∃ n, fuel = n + 1 := ⟨fuel - 1, by simp [CodeTree.count] at hfuel; omega⟩
      obtain ⟨hb, hrest⟩ := (c.shows_cons _ b _).1 hs
      have hlfuel : l.count ≤ fuel := by simp [CodeTree.count] at hfuel; omega
      have hrfuel : r.count ≤ fuel := by simp [CodeTree.count] at hfuel; omega
      rw [walkFrom_internal _ _ hp, Cursor.skip_skip, Cursor.skip_pos, Cursor.skip_bit, hb]
      cases b with
      | false =>
        rw [if_neg (by decide), Nat.add_zero, ihl h hleft hlfuel hrest]
        simp [CodeTree.place]; constructor <;> [omega; (congr 1; omega)]
      | true =>
        rw [if_pos rfl, ihr h hright hrfuel hrest]
        simp [CodeTree.place]; constructor <;> [omega; (congr 1; omega)]

/-- Where the stream shows a code of `t`, its table and its cells, whatever cells follow them, lead to the code's leaf,
whether the table holds the whole code or the walk goes on. -/
theorem lookup_of_find {w : Nat} {t : CodeTree (BitVec w)} {bs : List Bool} {v : BitVec w} {c : Cursor}
    (extra : List (Node w)) (h : t.find bs = some v) (hs : c.shows c.pos (fixed bs)) :
    lookup (t.cells ++ extra) t.table c = (t.place bs, c.skip bs.length) := by
  have hcells : ∀ i, i < t.count → (t.cells ++ extra)[0 + i]? = t.cells[i]? := fun i hi => by
    rw [Nat.zero_add, List.getElem?_append_left (by simpa using hi)]
  have hfuel : t.count ≤ (t.cells ++ extra).length + 1 := by simp; omega
  have hlt : c.peek8 < 256 := c.field_lt c.pos 8
  have hpeek : ∀ j b, bs[j]? = some b → 0 + j < 8 → c.peek8.testBit (0 + j) = b := fun j b hj hlt => by
    rw [Cursor.peek8, Cursor.field_testBit, hs (0 + j) b (by simpa [fixed] using hj),
      decide_eq_true hlt, Bool.true_and]
  have hentry : t.table.getD c.peek8 { node := 0, len := 0 } =
      (t.entry c.peek8 0 0).getD { node := 0, len := 0 } := by
    simp [CodeTree.table, hlt]
  rw [lookup, hentry, t.entry_of_find h (Nat.zero_le 8) hpeek]
  by_cases h8 : bs.length ≤ 8
  · have hleaf : nodeAt (t.cells ++ extra) (t.place bs) = .leaf v := by
      have hplace := CodeTree.cells_place h
      have hin : t.place bs < t.cells.length := (List.getElem?_eq_some_iff.1 hplace).1
      rw [nodeAt, List.getD_eq_getElem?_getD, List.getElem?_append_left hin, hplace]; rfl
    simp only [Nat.zero_add, if_pos h8, Option.getD_some]
    exact walkFrom_leaf _ _ hleaf
  · simp only [Nat.zero_add, if_neg h8, Option.getD_none]
    have := walkFrom_of_find (m := 0) h hcells hfuel hs
    simpa [walk] using this

end Sys2Proof.Machine
end

section
/-! PROOFS. Byte trees (41_byte_tree.md): what a construction makes of the stream it is shown, and the byte a code
gives. -/

namespace Sys2Proof.Machine

/-! ### One construction (R171) -/

/-- The byte tree with the nodes of `t` appended, `t` standing at depth `len` with code bits `code`. -/
def growByte (b : ByteTree) (t : CodeTree Byte) (code len : Nat) : ByteTree :=
  { b with nodes := b.nodes ++ t.cells, pfx := pfxAfter t code len b.nodes.length b.pfx }

/-- The byte tree with the cell of an internal node reserved. -/
def reserveByte (b : ByteTree) : ByteTree := { b with nodes := b.nodes ++ [.internal 0] }

/-- The byte tree with the count `r` stored in the internal cell `i`. -/
def storeByte (b : ByteTree) (i r : Nat) : ByteTree := { b with nodes := b.nodes.set i (.internal r) }

/-- The left subtree built, its count stored in the reserved cell, then the right subtree: the whole node. -/
theorem growByte_fork (b : ByteTree) (l r : CodeTree Byte) {code len : Nat} (hcode : len ≤ 8 → code < 2 ^ len) :
    growByte (storeByte (growByte (reserveByte b) l code (len + 1)) b.nodes.length l.count) r (rightCode code len)
      (len + 1) = growByte b (.fork l r) code len := by
  have hleft : storeByte (growByte (reserveByte b) l code (len + 1)) b.nodes.length l.count =
      { b with
        nodes := b.nodes ++ (.internal l.count :: l.cells)
        pfx := pfxAfter l code (len + 1) (b.nodes.length + 1) b.pfx } := by
    simp [storeByte, growByte, reserveByte]
  have hlen : (b.nodes ++ Node.internal l.count :: l.cells).length = b.nodes.length + 1 + l.count := by simp; omega
  rw [hleft]
  simp [growByte, hlen, pfxAfter_fork l r hcode, CodeTree.cells]

theorem growByte_length (b : ByteTree) (t : CodeTree Byte) (code len : Nat) :
    (growByte b t code len).nodes.length = b.nodes.length + t.count := by simp [growByte]

theorem reserveByte_length (b : ByteTree) : (reserveByte b).nodes.length = b.nodes.length + 1 := by simp [reserveByte]

theorem storeByte_length (b : ByteTree) (i r : Nat) : (storeByte b i r).nodes.length = b.nodes.length := by
  simp [storeByte]

theorem byteLeaf_eq (b : ByteTree) (c : Cursor) (code len : Nat) :
    byteLeaf b c code len =
      if b.nodes.length < 511 then .ok (growByte b (.leaf c.readByte.1) code len, c.skip 8, 1)
      else .error .byteTreeCapacity := by
  rcases appendCell_cases Config.byteCap .byteTreeCapacity b.nodes (.leaf c.readByte.1) with ⟨h, e⟩ | ⟨h, e⟩
  · have hlt : b.nodes.length < 511 := h
    simp only [byteLeaf, e, if_pos hlt, growByte, pfxAfter_leaf]
    rfl
  · have hge : ¬ b.nodes.length < 511 := Nat.not_lt.2 h
    simp only [byteLeaf, e, if_neg hge]
    rfl

theorem byteInternal_eq (node : ByteTree → Cursor → Nat → Nat → ByteBuilt) (b : ByteTree) (c : Cursor)
    (code len : Nat) :
    byteInternal node b c code len =
      if b.nodes.length < 511 then do
        let left ← node (reserveByte b) c code (len + 1)
        let right ← node (storeByte left.1 b.nodes.length left.2.2) left.2.1 (rightCode code len) (len + 1)
        pure (right.1, right.2.1, left.2.2 + right.2.2 + 1)
      else .error .byteTreeCapacity := by
  rcases appendCell_cases Config.byteCap .byteTreeCapacity b.nodes (.internal 0) with ⟨h, e⟩ | ⟨h, e⟩
  · have hlt : b.nodes.length < 511 := h
    simp only [byteInternal, e, if_pos hlt]
    rfl
  · have hge : ¬ b.nodes.length < 511 := Nat.not_lt.2 h
    simp only [byteInternal, e, if_neg hge]
    rfl

theorem byteNode_leaf (fuel : Nat) (b : ByteTree) {c : Cursor} (code len : Nat) (h : c.bit c.pos = false) :
    byteNode fuel b c code len = byteLeaf b (c.skip 1) code len := by
  cases fuel <;> simp [byteNode, h]

theorem byteNode_internal (fuel : Nat) (b : ByteTree) {c : Cursor} (code len : Nat) (h : c.bit c.pos = true) :
    byteNode (fuel + 1) b c code len = byteInternal (byteNode fuel) b (c.skip 1) code len := by
  simp [byteNode, h]

/-- Where the stream shows the nodes of a code tree, the construction appends them, as long as they fit; else it raises
BYTE_TREE_CAPACITY. -/
theorem byteNode_of_shows (t : CodeTree Byte) : ∀ {fuel : Nat} {b : ByteTree} {c : Cursor} {code len : Nat},
    (len ≤ 8 → code < 2 ^ len) → 511 ≤ b.nodes.length + fuel → c.shows c.pos t.nodeBits →
    byteNode fuel b c code len =
      if b.nodes.length + t.count ≤ 511 then .ok (growByte b t code len, c.skip t.nodeBits.length, t.count)
      else .error .byteTreeCapacity := by
  induction t with
  | leaf v =>
    intro fuel b c code len _ _ hs
    obtain ⟨hbit, hv⟩ := (c.shows_cons _ _ _).1 hs
    have hbyte : (c.skip 1).readByte = (v, (c.skip 1).skip 8) := Cursor.readByte_of_shows hv
    rw [byteNode_leaf _ _ _ _ hbit, byteLeaf_eq, hbyte, Cursor.skip_skip]
    simp only [CodeTree.count, CodeTree.nodeBits, List.length_cons, fixed_length, byteBits_length, Nat.lt_iff_add_one_le]
  | fork l r ihl ihr =>
    intro fuel b c code len hcode hfuel hs
    obtain ⟨hbit, hs⟩ := (c.shows_cons _ _ _).1 hs
    obtain ⟨hl, hr⟩ := (c.shows_append _ _ _).1 hs
    have hlpos := l.count_pos
    have hrpos := r.count_pos
    cases fuel with
    | zero =>
      rw [if_neg (by simp only [CodeTree.count]; omega)]
      simp [byteNode, hbit]
    | succ fuel =>
      have hhigh : (c.skip 1).skip l.nodeBits.length = c.skip (1 + l.nodeBits.length) := c.skip_skip _ _
      rw [byteNode_internal _ _ _ _ hbit, byteInternal_eq,
        ihl (c := c.skip 1) (leftCode_lt hcode) (by rw [reserveByte_length]; omega) hl, reserveByte_length, hhigh]
      by_cases hfit : b.nodes.length + 1 + l.count ≤ 511
      · have hstored : (storeByte (growByte (reserveByte b) l code (len + 1)) b.nodes.length l.count).nodes.length =
            b.nodes.length + 1 + l.count := by
          rw [storeByte_length, growByte_length, reserveByte_length]
        have hright := ihr (fuel := fuel) (c := c.skip (1 + l.nodeBits.length)) (rightCode_lt hcode)
          (by rw [hstored]; omega) (by simpa [Nat.add_assoc] using hr)
        rw [hstored, growByte_fork b l r hcode, Cursor.skip_skip] at hright
        have hcount : b.nodes.length + 1 + l.count + r.count = b.nodes.length + (l.fork r).count := by
          simp only [CodeTree.count]; omega
        have hbits : 1 + l.nodeBits.length + r.nodeBits.length = (l.fork r).nodeBits.length := by
          simp only [CodeTree.nodeBits, List.length_cons, List.length_append]; omega
        rw [if_pos (by omega), if_pos hfit]
        simp only [bind, Except.bind, hright, hcount, hbits]
        by_cases hall : b.nodes.length + (l.fork r).count ≤ 511
        · simp only [if_pos hall]; rfl
        · simp only [if_neg hall]
      · have hall : ¬ b.nodes.length + (l.fork r).count ≤ 511 := by simp only [CodeTree.count]; omega
        simp only [if_neg hfit, if_neg hall, bind, Except.bind, ite_self]

/-! ### The whole tree (R170) -/

theorem growByte_newByteTree (t : CodeTree Byte) : growByte newByteTree t 0 0 = byteTreeOf (some t) := by
  simp [growByte, newByteTree, byteTreeOf, pfxAfter_zeroPfx]

/-- A present tree: its nodes, then the padding bit. -/
theorem bytePresent_of_shows {t : CodeTree Byte} {c : Cursor} (hs : c.shows c.pos t.nodeBits) :
    bytePresent c = if t.count ≤ 511 then .ok (byteTreeOf (some t), c.skip (t.nodeBits.length + 1))
      else .error .byteTreeCapacity := by
  have hnode := byteNode_of_shows t (fuel := Config.byteCap) (b := newByteTree) (code := 0) (len := 0)
    (fun _ => Nat.one_pos) (Nat.le_add_left _ _) hs
  rw [bytePresent, hnode, growByte_newByteTree, ← Cursor.skip_skip]
  simp only [newByteTree, List.length_nil, Nat.zero_add]
  split <;> rfl

theorem buildByteTree_present {c : Cursor} (h : c.bit c.pos = true) : buildByteTree c = bytePresent (c.skip 1) := by
  simp [buildByteTree, h]

/-- A tree inside its capacity is built. -/
theorem buildByteTree_of_fits {d : ByteCode} {c : Cursor} (hfits : byteTreeFits d)
    (hs : c.shows c.pos (byteTreeBits d)) :
    buildByteTree c = .ok (byteTreeOf d, c.skip (byteTreeBits d).length) := by
  cases d with
  | none =>
    have hbit : c.bit c.pos = false := (c.shows_cons _ _ _).1 hs |>.1
    simp [buildByteTree, hbit, byteTreeOf, byteTreeBits, byteEmpty, newByteTree]
  | some t =>
    obtain ⟨hbit, hs⟩ := (c.shows_cons _ _ _).1 hs
    have hnodes : (c.skip 1).shows (c.skip 1).pos t.nodeBits := ((c.shows_append _ _ _).1 hs).1
    rw [buildByteTree_present hbit, bytePresent_of_shows hnodes, if_pos (show t.count ≤ 511 from hfits),
      Cursor.skip_skip]
    simp [byteTreeBits, Nat.add_comm]

/-- A tree past its capacity raises BYTE_TREE_CAPACITY. -/
theorem bytePresent_of_over {t : CodeTree Byte} {c : Cursor} (hover : 511 < t.count)
    (hs : c.shows c.pos t.nodeBits) : bytePresent c = .error .byteTreeCapacity := by
  rw [bytePresent_of_shows hs, if_neg (Nat.not_le.2 hover)]

theorem buildByteTree_of_over {t : CodeTree Byte} {c : Cursor} (hover : 511 < t.count)
    (hs : c.shows c.pos (byteTreeBits (some t))) :
    c.bit c.pos = true ∧ bytePresent (c.skip 1) = .error .byteTreeCapacity ∧
      buildByteTree c = .error .byteTreeCapacity := by
  obtain ⟨hbit, hs⟩ := (c.shows_cons _ _ _).1 hs
  have hpresent : bytePresent (c.skip 1) = .error .byteTreeCapacity :=
    bytePresent_of_over hover ((c.shows_append _ _ _).1 hs).1
  exact ⟨hbit, hpresent, by rw [buildByteTree_present hbit, hpresent]⟩

/-! ### The byte a code gives (R176, R180) -/

theorem byteGetCode_of_code {d : ByteCode} {bs : List Bool} {v : Byte} {c : Cursor}
    (hcode : byteCodeOf d bs = some v) (hfair : c.fair) (hs : c.shows c.pos (fixed bs)) :
    byteGetCode (byteTreeOf d) c = (v, c.skip bs.length) := by
  cases d with
  | none =>
    cases bs with
    | nil => cases hcode; simp [byteGetCode, byteTreeOf, Cursor.skip_zero hfair]
    | cons b bs => cases hcode
  | some t =>
    have hfind : t.find bs = some v := hcode
    have hlookup := lookup_of_find [] hfind hs
    have hleaf : nodeAt t.cells (t.place bs) = .leaf v := by
      rw [nodeAt, List.getD_eq_getElem?_getD, CodeTree.cells_place hfind]; rfl
    rw [List.append_nil] at hlookup
    simp [byteGetCode, byteTreeOf, hlookup, hleaf, leafValue]

/-! ### What a construction raises -/

theorem byteNode_error : ∀ {fuel : Nat} {b : ByteTree} {c : Cursor} {code len : Nat} {cause : Cause},
    byteNode fuel b c code len = .error cause → cause = .byteTreeCapacity := by
  intro fuel
  have hleaf : ∀ {b : ByteTree} {c : Cursor} {code len : Nat} {cause : Cause},
      byteLeaf b c code len = .error cause → cause = .byteTreeCapacity := by
    intro b c code len cause h
    rw [byteLeaf_eq] at h
    split at h <;> cases h
    rfl
  induction fuel with
  | zero =>
    intro b c code len cause h
    rw [byteNode] at h
    split at h
    · cases h; rfl
    · exact hleaf h
  | succ fuel ih =>
    intro b c code len cause h
    rw [byteNode] at h
    split at h
    · rw [byteInternal_eq] at h
      split at h
      · rcases bind_error h with h | ⟨_, _, h⟩
        · exact ih h
        · rcases bind_error h with h | ⟨_, _, h⟩
          · exact ih h
          · cases h
      · cases h; rfl
    · exact hleaf h

theorem buildByteTree_error {c : Cursor} {cause : Cause} (h : buildByteTree c = .error cause) :
    cause = .byteTreeCapacity := by
  rw [buildByteTree] at h
  split at h
  · rcases bind_error h with h | ⟨_, _, h⟩
    · exact byteNode_error h
    · cases h
  · cases h

end Sys2Proof.Machine
end

section
/-! PROOFS. Word trees (42_word_tree.md): what a construction makes of the stream it is shown, that every construction
which ends makes a sound tree, and what it raises. -/

namespace Sys2Proof.Machine

/-! ### The markers of a subtree (R202) -/

/-- Three like things given by their index. -/
def triOf {α : Type} (f : Fin 3 → α) : Tri α := { j0 := f 0, j1 := f 1, j2 := f 2 }

@[simp] theorem triOf_get {α : Type} (f : Fin 3 → α) (j : Fin 3) : (triOf f).get j = f j := by
  fin_cases j <;> rfl

theorem Tri.ext_get {α : Type} {t u : Tri α} (h : ∀ j, t.get j = u.get j) : t = u := by
  cases t
  cases u
  simpa [Tri.get] using And.intro (h 0) (And.intro (h 1) (h 2))

theorem Tri.get_set_if {α : Type} (p : Prop) [Decidable p] (t : Tri α) (x : α) (j l : Fin 3) :
    (if p then t.set x j else t).get l = if l = j ∧ p then x else t.get l := by
  by_cases hp : p
  · by_cases hl : l = j
    · simp [hp, hl]
    · simp [hp, hl, Tri.get_set_other]
  · simp [hp]

/-- Three conditional writes of one value. -/
theorem set_where {α : Type} (p : Fin 3 → Prop) [DecidablePred p] (t : Tri α) (x : α) :
    (if p 2 then (if p 1 then (if p 0 then t.set x 0 else t).set x 1 else if p 0 then t.set x 0 else t).set x 2
      else if p 1 then (if p 0 then t.set x 0 else t).set x 1 else if p 0 then t.set x 0 else t) =
      triOf fun j => if p j then x else t.get j := by
  apply Tri.ext_get
  intro j
  simp only [Tri.get_set_if, triOf_get]
  fin_cases j <;> simp

/-- The position of the last leaf whose value is the marker, the first node having position `i`. -/
def lastPlaceFrom (i : Nat) (m : Half) (t : CodeTree Half) : Option Nat :=
  ((t.places i).filter fun p => p.2 == m).getLast?.map Prod.fst

theorem lastPlace_eq (m : Half) (t : CodeTree Half) : lastPlace m t = lastPlaceFrom 0 m t := rfl

theorem lastPlaceFrom_leaf (i : Nat) (m v : Half) :
    lastPlaceFrom i m (.leaf v) = if v = m then some i else none := by
  by_cases h : v = m <;> simp [lastPlaceFrom, CodeTree.places, h]

/-- The right subtree is built later. -/
theorem lastPlaceFrom_fork (i : Nat) (m : Half) (l r : CodeTree Half) :
    lastPlaceFrom i m (.fork l r) = (lastPlaceFrom (i + 1 + l.count) m r).or (lastPlaceFrom (i + 1) m l) := by
  simp [lastPlaceFrom, CodeTree.places, List.getLast?_append, Option.map_or]

/-- A leaf stands in the array at its position. -/
theorem CodeTree.cells_of_mem_places {t : CodeTree Half} : ∀ {i : Nat} {p : Nat × Half}, p ∈ t.places i →
    ∃ q, p.1 = i + q ∧ t.cells[q]? = some (.leaf p.2) := by
  induction t with
  | leaf v =>
    intro i p h
    obtain rfl := List.mem_singleton.1 h
    exact ⟨0, rfl, rfl⟩
  | fork l r ihl ihr =>
    intro i p h
    rcases List.mem_append.1 h with h | h
    · obtain ⟨q, hp, hq⟩ := ihl h
      have hlt : q < l.cells.length := (List.getElem?_eq_some_iff.1 hq).1
      exact ⟨q + 1, by omega, by simp [cells, List.getElem?_append_left hlt, hq]⟩
    · obtain ⟨q, hp, hq⟩ := ihr h
      refine ⟨l.count + q + 1, by omega, ?_⟩
      rw [cells, List.getElem?_cons_succ, List.getElem?_append_right (by simp)]
      simpa using hq

theorem CodeTree.places_map (f : Half → Half) (t : CodeTree Half) : ∀ i,
    (t.map f).places i = (t.places i).map fun p => (p.1, f p.2) := by
  induction t with
  | leaf v => intro i; rfl
  | fork l r ihl ihr => intro i; simp [map, places, ihl, ihr]

/-- The place of a marker is a leaf. -/
theorem cells_of_lastPlace (f : Half → Half) {m : Half} {t : CodeTree Half} {p : Nat} (h : lastPlace m t = some p) :
    ∃ v, (t.map f).cells[p]? = some (.leaf v) := by
  obtain ⟨⟨q, v⟩, hlast, rfl⟩ := Option.map_eq_some_iff.1 h
  have hmem : (q, v) ∈ t.places 0 := (List.mem_filter.1 (List.mem_of_getLast? hlast)).1
  have hmem' : (q, f v) ∈ (t.map f).places 0 := by
    rw [CodeTree.places_map]
    exact List.mem_map.2 ⟨_, hmem, rfl⟩
  obtain ⟨_, hq, hcell⟩ := CodeTree.cells_of_mem_places hmem'
  rw [Nat.zero_add] at hq
  exact ⟨f v, hq ▸ hcell⟩

/-! ### One construction (R201) -/

/-- The draft with the nodes of `t` appended, `t` being the code tree of the composed values and standing at depth `len`
with code bits `code`. -/
def growWord (b : WordDraft) (t : CodeTree Half) (code len : Nat) : WordDraft :=
  { tree :=
      { b.tree with
        nodes := b.tree.nodes ++ (t.map (unmarked b.tree.mark)).cells
        pfx := pfxAfter t code len b.tree.nodes.length b.tree.pfx
        slot := triOf fun j =>
          (lastPlaceFrom b.tree.nodes.length (b.tree.mark.get j) t).getD (b.tree.slot.get j) }
    marked := triOf fun j => b.marked.get j || (lastPlaceFrom b.tree.nodes.length (b.tree.mark.get j) t).isSome }

/-- The draft with the cell of an internal node reserved. -/
def reserveWord (b : WordDraft) : WordDraft :=
  { b with tree := { b.tree with nodes := b.tree.nodes ++ [.internal 0] } }

/-- The draft with the count `r` stored in the internal cell `i`. -/
def storeWord (b : WordDraft) (i r : Nat) : WordDraft :=
  { b with tree := { b.tree with nodes := b.tree.nodes.set i (.internal r) } }

theorem growWord_length (b : WordDraft) (t : CodeTree Half) (code len : Nat) :
    (growWord b t code len).tree.nodes.length = b.tree.nodes.length + t.count := by simp [growWord]

theorem reserveWord_length (b : WordDraft) : (reserveWord b).tree.nodes.length = b.tree.nodes.length + 1 := by
  simp [reserveWord]

theorem storeWord_length (b : WordDraft) (i r : Nat) :
    (storeWord b i r).tree.nodes.length = b.tree.nodes.length := by
  simp [storeWord]

/-- The left subtree built, its count stored in the reserved cell, then the right subtree: the whole node. -/
theorem growWord_fork (b : WordDraft) (l r : CodeTree Half) {code len : Nat} (hcode : len ≤ 8 → code < 2 ^ len) :
    growWord (storeWord (growWord (reserveWord b) l code (len + 1)) b.tree.nodes.length l.count) r
      (rightCode code len) (len + 1) = growWord b (.fork l r) code len := by
  have hset : storeWord (growWord (reserveWord b) l code (len + 1)) b.tree.nodes.length l.count =
      { growWord (reserveWord b) l code (len + 1) with
        tree := { (growWord (reserveWord b) l code (len + 1)).tree with
          nodes := b.tree.nodes ++ (.internal l.count :: (l.map (unmarked b.tree.mark)).cells) } } := by
    simp [storeWord, growWord, reserveWord]
  have hlen : (b.tree.nodes ++ Node.internal l.count :: (l.map (unmarked b.tree.mark)).cells).length =
      b.tree.nodes.length + 1 + l.count := by simp; omega
  rw [hset]
  simp [growWord, reserveWord, hlen, pfxAfter_fork l r hcode, CodeTree.cells, CodeTree.map, lastPlaceFrom_fork,
    Bool.or_assoc, Bool.or_comm, Option.getD_or]

/-- The two codes of a leaf: the composed value, and the cursor after them. -/
def leafCodes (lo hi : ByteTree) (c : Cursor) : Half × Cursor :=
  (joinBytes (byteGetCode hi (byteGetCode lo c).2).1 (byteGetCode lo c).1, (byteGetCode hi (byteGetCode lo c).2).2)

/-- One marker test, field by field. -/
theorem matchMarker_eq (v : Half) (i : Nat) (b : WordDraft) (j : Fin 3) :
    matchMarker v i b j =
      { tree :=
          { b.tree with
            nodes := if v = b.tree.mark.get j then b.tree.nodes.set i (.leaf 0) else b.tree.nodes
            slot := if v = b.tree.mark.get j then b.tree.slot.set i j else b.tree.slot }
        marked := if v = b.tree.mark.get j then b.marked.set true j else b.marked } := by
  by_cases h : v = b.tree.mark.get j
  · simp only [matchMarker, if_pos h]
  · simp only [matchMarker, if_neg h]

/-- The three marker tests on a new leaf: it is the slot of every marker it matches, and stored as 0 if there is one. -/
theorem markerMatch_append (v : Half) (w : WordTree) (marked : Tri Bool) :
    markerMatch v w.nodes.length { tree := { w with nodes := w.nodes ++ [.leaf v] }, marked := marked } =
      { tree :=
          { w with
            nodes := w.nodes ++ [.leaf (unmarked w.mark v)]
            slot := triOf fun j => if v = w.mark.get j then w.nodes.length else w.slot.get j }
        marked := triOf fun j => marked.get j || decide (v = w.mark.get j) } := by
  have hstep : ∀ (p : Prop) [Decidable p] (x : Half),
      (if p then (w.nodes ++ [Node.leaf x]).set w.nodes.length (.leaf 0) else w.nodes ++ [.leaf x]) =
        w.nodes ++ [.leaf (if p then 0 else x)] := by
    intro p _ x
    by_cases hp : p <;> simp [hp]
  simp only [markerMatch, matchMarker_eq, hstep, WordDraft.mk.injEq, WordTree.mk.injEq, true_and]
  refine ⟨⟨?nodes, ?slot⟩, ?marked⟩
  case nodes =>
    simp only [Tri.get, unmarked]
    grind
  case slot => exact set_where (fun j => v = w.mark.get j) w.slot w.nodes.length
  case marked =>
    refine (set_where (fun j => v = w.mark.get j) marked true).trans (congrArg triOf (funext fun j => ?_))
    by_cases h : v = w.mark.get j <;> simp [h]

theorem growWord_leaf (b : WordDraft) (v : Half) (code len : Nat) :
    markerMatch v b.tree.nodes.length
      { b with
        tree :=
          { b.tree with
            nodes := b.tree.nodes ++ [.leaf v]
            pfx := fillPfx code len b.tree.nodes.length b.tree.pfx } } =
      growWord b (.leaf v) code len := by
  rw [markerMatch_append v { b.tree with pfx := fillPfx code len b.tree.nodes.length b.tree.pfx } b.marked]
  simp only [growWord, pfxAfter_leaf, lastPlaceFrom_leaf, CodeTree.map, CodeTree.cells, WordDraft.mk.injEq,
    WordTree.mk.injEq, true_and]
  refine ⟨congrArg triOf (funext fun j => ?_), congrArg triOf (funext fun j => ?_)⟩
  · by_cases h : v = b.tree.mark.get j <;> simp [h]
  · by_cases h : v = b.tree.mark.get j <;> simp [h]

/-- WAppend under its capacity. -/
theorem wordAppend_eq (cap : Nat) (w : WordTree) (cell : Node 16) :
    wordAppend cap w cell =
      if w.nodes.length < cap then .ok { w with nodes := w.nodes ++ [cell] } else .error .wordTreeCapacity := by
  rcases appendCell_cases cap .wordTreeCapacity w.nodes cell with ⟨h, e⟩ | ⟨h, e⟩
  · rw [wordAppend, e, if_pos h]; rfl
  · rw [wordAppend, e, if_neg (Nat.not_lt.2 h)]; rfl

theorem wordLeaf_eq (cap : Nat) (lo hi : ByteTree) (b : WordDraft) (c : Cursor) (code len : Nat) :
    wordLeaf cap lo hi b c code len =
      if b.tree.nodes.length < cap then
        .ok (growWord b (.leaf (leafCodes lo hi c).1) code len, (leafCodes lo hi c).2, 1)
      else .error .wordTreeCapacity := by
  by_cases h : b.tree.nodes.length < cap
  · simp only [wordLeaf, wordAppend_eq, if_pos h, ← growWord_leaf]
    rfl
  · simp only [wordLeaf, wordAppend_eq, if_neg h]
    rfl

theorem wordInternal_eq (cap : Nat) (node : WordDraft → Cursor → Nat → Nat → WordBuilt) (b : WordDraft) (c : Cursor)
    (code len : Nat) :
    wordInternal cap node b c code len =
      if b.tree.nodes.length < cap then do
        let left ← node (reserveWord b) c code (len + 1)
        let right ← node (storeWord left.1 b.tree.nodes.length left.2.2) left.2.1 (rightCode code len) (len + 1)
        pure (right.1, right.2.1, left.2.2 + right.2.2 + 1)
      else .error .wordTreeCapacity := by
  by_cases h : b.tree.nodes.length < cap
  · simp only [wordInternal, wordAppend_eq, if_pos h]
    rfl
  · simp only [wordInternal, wordAppend_eq, if_neg h]
    rfl

section Construction

variable {cap : Nat} {lo hi : ByteTree}

theorem wordNode_leaf (fuel : Nat) (b : WordDraft) {c : Cursor} (code len : Nat) (h : c.bit c.pos = false) :
    wordNode cap lo hi fuel b c code len = wordLeaf cap lo hi b (c.skip 1) code len := by
  cases fuel <;> simp [wordNode, h]

theorem wordNode_internal (fuel : Nat) (b : WordDraft) {c : Cursor} (code len : Nat) (h : c.bit c.pos = true) :
    wordNode cap lo hi (fuel + 1) b c code len =
      wordInternal cap (wordNode cap lo hi fuel) b (c.skip 1) code len := by
  simp [wordNode, h]

theorem wordNode_noLevel (b : WordDraft) {c : Cursor} (code len : Nat) (h : c.bit c.pos = true) :
    wordNode cap lo hi 0 b c code len = .error .wordTreeCapacity := by
  simp [wordNode, h]

/-- A construction that ends has appended the nodes of some code tree, and they fit. -/
theorem wordNode_ok : ∀ {fuel : Nat} {b : WordDraft} {c : Cursor} {code len : Nat} {r : WordDraft × Cursor × Nat},
    (len ≤ 8 → code < 2 ^ len) → wordNode cap lo hi fuel b c code len = .ok r →
    ∃ t : CodeTree Half, r.1 = growWord b t code len ∧ r.2.2 = t.count ∧ b.tree.nodes.length + t.count ≤ cap := by
  intro fuel
  have hleaf : ∀ {b : WordDraft} {c : Cursor} {code len : Nat} {r : WordDraft × Cursor × Nat},
      wordLeaf cap lo hi b c code len = .ok r →
      ∃ t : CodeTree Half, r.1 = growWord b t code len ∧ r.2.2 = t.count ∧ b.tree.nodes.length + t.count ≤ cap := by
    intro b c code len r h
    rw [wordLeaf_eq] at h
    split at h
    · next hlt => cases h; exact ⟨.leaf (leafCodes lo hi c).1, rfl, rfl, hlt⟩
    · cases h
  induction fuel with
  | zero =>
    intro b c code len r hcode h
    cases hbit : c.bit c.pos with
    | false => exact hleaf (wordNode_leaf 0 b code len hbit ▸ h)
    | true => rw [wordNode_noLevel b code len hbit] at h; cases h
  | succ fuel ih =>
    intro b c code len r hcode h
    cases hbit : c.bit c.pos with
    | false => exact hleaf (wordNode_leaf (fuel + 1) b code len hbit ▸ h)
    | true =>
      rw [wordNode_internal fuel b code len hbit, wordInternal_eq] at h
      split at h
      · obtain ⟨⟨left, c1, r1⟩, hleft, h⟩ := bind_ok h
        obtain ⟨⟨right, c2, r2⟩, hright, h⟩ := bind_ok h
        obtain ⟨l, rfl, rfl, _⟩ := ih (leftCode_lt hcode) hleft
        obtain ⟨t, rfl, rfl, hfit⟩ := ih (rightCode_lt hcode) hright
        cases h
        rw [storeWord_length, growWord_length, reserveWord_length] at hfit
        exact ⟨.fork l t, growWord_fork b l t hcode, rfl, by simp only [CodeTree.count]; omega⟩
      · cases h

/-- A construction raises WORD_TREE_CAPACITY, and nothing else. -/
theorem wordNode_error : ∀ {fuel : Nat} {b : WordDraft} {c : Cursor} {code len : Nat} {cause : Cause},
    wordNode cap lo hi fuel b c code len = .error cause → cause = .wordTreeCapacity := by
  intro fuel
  have hleaf : ∀ {b : WordDraft} {c : Cursor} {code len : Nat} {cause : Cause},
      wordLeaf cap lo hi b c code len = .error cause → cause = .wordTreeCapacity := by
    intro b c code len cause h
    rw [wordLeaf_eq] at h
    split at h <;> cases h
    rfl
  induction fuel with
  | zero =>
    intro b c code len cause h
    cases hbit : c.bit c.pos with
    | false => exact hleaf (wordNode_leaf 0 b code len hbit ▸ h)
    | true => rw [wordNode_noLevel b code len hbit] at h; cases h; rfl
  | succ fuel ih =>
    intro b c code len cause h
    cases hbit : c.bit c.pos with
    | false => exact hleaf (wordNode_leaf (fuel + 1) b code len hbit ▸ h)
    | true =>
      rw [wordNode_internal fuel b code len hbit, wordInternal_eq] at h
      split at h
      · rcases bind_error h with h | ⟨_, _, h⟩
        · exact ih h
        · rcases bind_error h with h | ⟨_, _, h⟩
          · exact ih h
          · cases h
      · cases h; rfl

end Construction

/-- The codes of a leaf give its composed value. -/
theorem leafCodes_of_shows {d : WordCode} {p : List Bool × List Bool} {c : Cursor} (hfair : c.fair)
    (hlo : (byteCodeOf d.lo p.1).isSome) (hhi : (byteCodeOf d.hi p.2).isSome)
    (hs : c.shows c.pos (fixed p.1 ++ fixed p.2)) :
    leafCodes (byteTreeOf d.lo) (byteTreeOf d.hi) c = (d.value p, c.skip (p.1.length + p.2.length)) := by
  obtain ⟨vlo, hvlo⟩ := Option.isSome_iff_exists.1 hlo
  obtain ⟨vhi, hvhi⟩ := Option.isSome_iff_exists.1 hhi
  obtain ⟨hs1, hs2⟩ := (c.shows_append _ _ _).1 hs
  have hhigh := byteGetCode_of_code (c := c.skip p.1.length) hvhi (c.skip_fair _) (by simpa using hs2)
  rw [leafCodes, byteGetCode_of_code hvlo hfair hs1, hhigh, Cursor.skip_skip]
  simp [WordCode.value, hvlo, hvhi, joinBytes]

/-- Where the stream shows the nodes of a word tree, the construction appends their values, as long as they fit; else it
raises WORD_TREE_CAPACITY. -/
theorem wordNode_of_shows {d : WordCode} {cap : Nat} (t : CodeTree (List Bool × List Bool)) :
    ∀ {fuel : Nat} {b : WordDraft} {c : Cursor} {code len : Nat},
    (∀ p ∈ t.labels, (byteCodeOf d.lo p.1).isSome ∧ (byteCodeOf d.hi p.2).isSome) →
    (len ≤ 8 → code < 2 ^ len) → cap ≤ b.tree.nodes.length + fuel → c.shows c.pos (wordNodeBits t) →
    wordNode cap (byteTreeOf d.lo) (byteTreeOf d.hi) fuel b c code len =
      if b.tree.nodes.length + t.count ≤ cap then
        .ok (growWord b (t.map d.value) code len, c.skip (wordNodeBits t).length, t.count)
      else .error .wordTreeCapacity := by
  induction t with
  | leaf p =>
    intro fuel b c code len hlabels _ _ hs
    obtain ⟨hbit, hs⟩ := (c.shows_cons _ _ _).1 hs
    obtain ⟨hlo, hhi⟩ := hlabels p (List.mem_singleton.2 rfl)
    have hcodes := leafCodes_of_shows (c := c.skip 1) (c.skip_fair 1) hlo hhi hs
    have hskip : 1 + (p.1.length + p.2.length) = (wordNodeBits (.leaf p)).length := by
      simp [wordNodeBits, Nat.add_comm]
    rw [wordNode_leaf _ _ _ _ hbit, wordLeaf_eq, hcodes, Cursor.skip_skip, hskip]
    rfl
  | fork l r ihl ihr =>
    intro fuel b c code len hlabels hcode hfuel hs
    obtain ⟨hbit, hs⟩ := (c.shows_cons _ _ _).1 hs
    obtain ⟨hl, hr⟩ := (c.shows_append _ _ _).1 hs
    have hlabelsl := fun p hp => hlabels p (List.mem_append_left r.labels hp)
    have hlabelsr := fun p hp => hlabels p (List.mem_append_right l.labels hp)
    have hlpos := l.count_pos
    have hrpos := r.count_pos
    cases fuel with
    | zero =>
      rw [if_neg (by simp only [CodeTree.count]; omega), wordNode_noLevel _ _ _ hbit]
    | succ fuel =>
      have hhigh : (c.skip 1).skip (wordNodeBits l).length = c.skip (1 + (wordNodeBits l).length) := c.skip_skip _ _
      rw [wordNode_internal _ _ _ _ hbit, wordInternal_eq,
        ihl (c := c.skip 1) hlabelsl (leftCode_lt hcode) (by rw [reserveWord_length]; omega) hl, reserveWord_length,
        hhigh]
      by_cases hfit : b.tree.nodes.length + 1 + l.count ≤ cap
      · have hstored : (storeWord (growWord (reserveWord b) (l.map d.value) code (len + 1)) b.tree.nodes.length
            l.count).tree.nodes.length = b.tree.nodes.length + 1 + l.count := by
          rw [storeWord_length, growWord_length, reserveWord_length, CodeTree.count_map]
        have hfork := growWord_fork b (l.map d.value) (r.map d.value) hcode
        rw [CodeTree.count_map] at hfork
        have hright := ihr (fuel := fuel) (c := c.skip (1 + (wordNodeBits l).length)) hlabelsr (rightCode_lt hcode)
          (by rw [hstored]; omega) (by simpa [Nat.add_assoc] using hr)
        rw [hstored, hfork, Cursor.skip_skip] at hright
        have hcount : b.tree.nodes.length + 1 + l.count + r.count = b.tree.nodes.length + (l.fork r).count := by
          simp only [CodeTree.count]; omega
        have hbits : 1 + (wordNodeBits l).length + (wordNodeBits r).length = (wordNodeBits (l.fork r)).length := by
          simp only [wordNodeBits, List.length_cons, List.length_append]; omega
        rw [if_pos (by omega), if_pos hfit]
        simp only [bind, Except.bind, hright, hcount, hbits]
        by_cases hall : b.tree.nodes.length + (l.fork r).count ≤ cap
        · simp only [if_pos hall]; rfl
        · simp only [if_neg hall]
      · have hall : ¬ b.tree.nodes.length + (l.fork r).count ≤ cap := by simp only [CodeTree.count]; omega
        simp only [if_neg hfit, if_neg hall, bind, Except.bind, ite_self]

/-! ### The unmatched markers (R203) and the whole tree (R200) -/

/-- The draft with the cell of marker `j` appended, where no leaf matched it. -/
def extraCell (b : WordDraft) (j : Fin 3) : WordDraft :=
  if b.marked.get j then b
  else
    { b with
      tree :=
        { b.tree with
          nodes := b.tree.nodes ++ [.leaf 0]
          slot := b.tree.slot.set b.tree.nodes.length j } }

theorem extraCell_length (b : WordDraft) (j : Fin 3) :
    b.tree.nodes.length ≤ (extraCell b j).tree.nodes.length := by
  unfold extraCell
  split <;> simp

theorem appendUnmatched_eq {cap : Nat} {b : WordDraft} (j : Fin 3) (hfit : b.tree.nodes.length ≤ cap) :
    appendUnmatched cap b j =
      if (extraCell b j).tree.nodes.length ≤ cap then .ok (extraCell b j) else .error .wordTreeCapacity := by
  unfold appendUnmatched extraCell
  cases b.marked.get j with
  | true => simp [hfit]
  | false =>
    by_cases h : b.tree.nodes.length < cap
    · simp [wordAppend_eq, h, Nat.succ_le_of_lt h, bind, Except.bind, pure, Except.pure]
    · simp [wordAppend_eq, h, bind, Except.bind, show ¬ b.tree.nodes.length + 1 ≤ cap by omega]

/-- The word tree with the markers `m` and the composed values `t`, BUILT being `flag`. -/
def builtTree (flag : Bool) (m : Tri Half) (t : CodeTree Half) : WordTree :=
  { built := flag
    empty := false
    nodes := (t.map (unmarked m)).cells ++ List.replicate ((slotsOf m t).2 - t.count) (.leaf 0)
    pfx := t.table
    mark := m
    slot := (slotsOf m t).1 }

theorem WordCode.built_eq (d : WordCode) (flag : Bool) : d.built flag = builtTree flag d.mark d.values := by
  simp [WordCode.built, builtTree, WordCode.total, WordCode.values]

/-- The cleared tree with its markers read. -/
def markedTree (w : WordTree) (m : Tri Half) : WordDraft :=
  { tree := { clearWordTree w with mark := m }, marked := noneMarked }

/-- The same, field by field. -/
theorem extraCell_eq (b : WordDraft) (j : Fin 3) :
    extraCell b j =
      { b with
        tree :=
          { b.tree with
            nodes := b.tree.nodes ++ List.replicate (if (b.marked.get j).not then 1 else 0) (.leaf 0)
            slot := if (b.marked.get j).not then b.tree.slot.set b.tree.nodes.length j else b.tree.slot } } := by
  cases h : b.marked.get j <;> simp [extraCell, h]

/-- The unmatched markers' cells complete the tree. -/
theorem extraCell_growWord (w : WordTree) (m : Tri Half) (t : CodeTree Half) :
    (extraCell (extraCell (extraCell (growWord (markedTree w m) t 0 0) 0) 1) 2).tree = builtTree w.built m t := by
  have hmarked : (growWord (markedTree w m) t 0 0).marked = triOf fun j => (lastPlace (m.get j) t).isSome := by
    refine Tri.ext_get fun j => ?_
    fin_cases j <;> simp [growWord, markedTree, clearWordTree, noneMarked, triOf, Tri.get, lastPlace_eq]
  have htotal : (slotsOf m t).2 - t.count = (if (lastPlace (m.get 0) t).isSome.not then 1 else 0) +
      ((if (lastPlace (m.get 1) t).isSome.not then 1 else 0) +
        (if (lastPlace (m.get 2) t).isSome.not then 1 else 0)) := by
    simp only [slotsOf, Tri.get, Bool.not_eq_true']
    split_ifs <;> simp_all <;> omega
  simp only [extraCell_eq, hmarked, triOf_get]
  simp only [growWord, markedTree, clearWordTree, builtTree, WordTree.mk.injEq, true_and, List.nil_append,
    pfxAfter_zeroPfx, List.length_nil, ← lastPlace_eq]
  refine ⟨?nodes, Tri.ext_get fun j => ?slot⟩
  case nodes =>
    rw [htotal, List.append_assoc, List.append_assoc, List.replicate_append_replicate,
      List.replicate_append_replicate]
  case slot =>
    simp only [Tri.get_set_if, triOf_get, List.length_append, List.length_replicate, CodeTree.cells_length,
      CodeTree.count_map]
    fin_cases j
    · cases h : lastPlace m.j0 t <;> simp [slotsOf, Tri.get, h]
    · cases h : lastPlace m.j1 t <;> cases h0 : lastPlace m.j0 t <;> simp [slotsOf, Tri.get, h, h0]
    · cases h : lastPlace m.j2 t <;> cases h0 : lastPlace m.j0 t <;> cases h1 : lastPlace m.j1 t <;>
        simp [slotsOf, Tri.get, h, h0, h1]

/-- The cells of the three markers that no leaf matched, after the nodes. -/
def appendExtra (cap : Nat) (b : WordDraft) : Except Cause WordTree := do
  let b0 ← appendUnmatched cap b 0
  let b1 ← appendUnmatched cap b0 1
  let b2 ← appendUnmatched cap b1 2
  pure b2.tree

theorem appendExtra_eq {cap : Nat} {b : WordDraft} (hfit : b.tree.nodes.length ≤ cap) :
    appendExtra cap b =
      if (extraCell (extraCell (extraCell b 0) 1) 2).tree.nodes.length ≤ cap then
        .ok (extraCell (extraCell (extraCell b 0) 1) 2).tree
      else .error .wordTreeCapacity := by
  have h1 := extraCell_length (extraCell b 0) 1
  have h2 := extraCell_length (extraCell (extraCell b 0) 1) 2
  rw [appendExtra, appendUnmatched_eq 0 hfit]
  by_cases hfit0 : (extraCell b 0).tree.nodes.length ≤ cap
  · simp only [if_pos hfit0, bind, Except.bind, appendUnmatched_eq 1 hfit0]
    by_cases hfit1 : (extraCell (extraCell b 0) 1).tree.nodes.length ≤ cap
    · simp only [if_pos hfit1, appendUnmatched_eq 2 hfit1]
      split_ifs <;> rfl
    · rw [if_neg hfit1, if_neg (by omega)]
  · rw [if_neg hfit0, if_neg (by omega)]
    rfl

theorem count_le_slotsOf (m : Tri Half) (t : CodeTree Half) : t.count ≤ (slotsOf m t).2 := by
  simp only [slotsOf]
  split_ifs <;> omega

theorem builtTree_length (flag : Bool) (m : Tri Half) (t : CodeTree Half) :
    (builtTree flag m t).nodes.length = (slotsOf m t).2 := by
  simp [builtTree, count_le_slotsOf]

/-- The nodes of a present tree built, its markers' cells complete it inside the capacity, and raise outside. -/
theorem appendExtra_growWord {cap : Nat} (w : WordTree) (m : Tri Half) (t : CodeTree Half) (hfit : t.count ≤ cap) :
    appendExtra cap (growWord (markedTree w m) t 0 0) =
      if (slotsOf m t).2 ≤ cap then .ok (builtTree w.built m t) else .error .wordTreeCapacity := by
  have hlen : (growWord (markedTree w m) t 0 0).tree.nodes.length ≤ cap := by
    rw [growWord_length]; simpa [markedTree, clearWordTree] using hfit
  rw [appendExtra_eq hlen, extraCell_growWord, builtTree_length]

/-- The parts of a present tree, in the order they are read. -/
theorem wordPresent_eq (cap : Nat) (w : WordTree) (c : Cursor) :
    wordPresent cap (clearWordTree w) c =
      (buildByteTree c >>= fun lo => buildByteTree lo.2 >>= fun hi =>
        wordNode cap lo.1 hi.1 cap (markedTree w (readMarkers hi.2).1) (readMarkers hi.2).2 0 0 >>= fun r =>
          appendExtra cap r.1 >>= fun tree => pure (tree, r.2.1.skip 1)) := by
  simp only [wordPresent, appendExtra, bind_assoc, pure_bind]
  rfl

/-- A present tree that is built stands for some code tree of composed values, inside the capacity. -/
theorem wordPresent_ok {cap : Nat} {w : WordTree} {c : Cursor} {r : WordTree × Cursor}
    (h : wordPresent cap (clearWordTree w) c = .ok r) :
    ∃ m t, r.1 = builtTree w.built m t ∧ (slotsOf m t).2 ≤ cap := by
  rw [wordPresent_eq] at h
  obtain ⟨lo, _, h⟩ := bind_ok h
  obtain ⟨hi, _, h⟩ := bind_ok h
  obtain ⟨⟨b, c', n⟩, hnode, h⟩ := bind_ok h
  obtain ⟨tree, hextra, h⟩ := bind_ok h
  obtain ⟨t, rfl, rfl, hfit⟩ := wordNode_ok (fun _ => Nat.one_pos) hnode
  have hcount : t.count ≤ cap := by simpa [markedTree, clearWordTree] using hfit
  rw [appendExtra_growWord _ _ _ hcount] at hextra
  split at hextra
  · next htotal =>
    cases hextra
    cases h
    exact ⟨_, t, rfl, htotal⟩
  · cases hextra

theorem wordPresent_error {cap : Nat} {w : WordTree} {c : Cursor} {cause : Cause}
    (h : wordPresent cap (clearWordTree w) c = .error cause) :
    cause = .byteTreeCapacity ∨ cause = .wordTreeCapacity := by
  rw [wordPresent_eq] at h
  rcases bind_error h with h | ⟨lo, _, h⟩
  · exact .inl (buildByteTree_error h)
  rcases bind_error h with h | ⟨hi, _, h⟩
  · exact .inl (buildByteTree_error h)
  rcases bind_error h with h | ⟨⟨b, c', n⟩, hnode, h⟩
  · exact .inr (wordNode_error h)
  rcases bind_error h with h | ⟨tree, _, h⟩
  · obtain ⟨t, rfl, rfl, hfit⟩ := wordNode_ok (fun _ => Nat.one_pos) hnode
    have hcount : t.count ≤ cap := by simpa [markedTree, clearWordTree] using hfit
    rw [appendExtra_growWord _ _ _ hcount] at h
    split at h <;> cases h
    exact .inr rfl
  · cases h

/-! ### The tree a stream shows -/

theorem readMarkers_of_shows {c : Cursor} {m : Tri Half} (h0 : c.shows c.pos (fixed (halfBits m.j0)))
    (h1 : c.shows (c.pos + 16) (fixed (halfBits m.j1))) (h2 : c.shows (c.pos + 32) (fixed (halfBits m.j2))) :
    readMarkers c = (m, c.skip 48) := by
  have hread1 := Cursor.readHalf_of_shows (c := c.skip 16) (v := m.j1) h1
  have hread2 := Cursor.readHalf_of_shows (c := c.skip 32) (v := m.j2) h2
  simp [readMarkers, Cursor.readHalf_of_shows h0, Cursor.skip_skip, hread1, hread2]

/-- A present tree whose byte trees fit and whose codes are legal is built as the stream shows it, inside its capacity. -/
theorem wordPresent_of_shows {cap : Nat} {d : WordCode} {w : WordTree} {c : Cursor} (hlegal : d.legal)
    (hs : c.shows c.pos (wordTreeBits (some d))) :
    wordPresent cap (clearWordTree w) (c.skip 1) =
      if d.total ≤ cap then .ok (d.built w.built, c.skip (wordTreeBits (some d)).length)
      else .error .wordTreeCapacity := by
  obtain ⟨hlo, hhi, hlabels⟩ := hlegal
  obtain ⟨_, hs⟩ := (c.shows_cons _ _ _).1 hs
  simp only [Cursor.shows_append, List.length_append, fixed_length, halfBits_length] at hs
  obtain ⟨⟨⟨⟨⟨⟨slo, shi⟩, s0⟩, s1⟩, s2⟩, snodes⟩, _⟩ := hs
  have rlo := buildByteTree_of_fits (c := c.skip 1) hlo slo
  have rhi := buildByteTree_of_fits (c := (c.skip 1).skip (byteTreeBits d.lo).length) hhi shi
  have rmarks := readMarkers_of_shows (m := d.mark)
    (c := ((c.skip 1).skip (byteTreeBits d.lo).length).skip (byteTreeBits d.hi).length)
    (by simpa [Nat.add_assoc] using s0) (by simpa [Nat.add_assoc] using s1) (by simpa [Nat.add_assoc] using s2)
  have rnodes := wordNode_of_shows (cap := cap) (fuel := cap) (b := markedTree w d.mark) (code := 0) (len := 0)
    (c := (((c.skip 1).skip (byteTreeBits d.lo).length).skip (byteTreeBits d.hi).length).skip 48) d.tree hlabels
    (fun _ => Nat.one_pos) (Nat.le_add_left _ _) (by simpa [Nat.add_assoc] using snodes)
  have hempty : (markedTree w d.mark).tree.nodes.length = 0 := rfl
  rw [hempty, Nat.zero_add] at rnodes
  have hcount : d.tree.count ≤ d.total := by
    simpa [WordCode.total, WordCode.values] using count_le_slotsOf d.mark d.values
  have hbits : (wordTreeBits (some d)).length =
      1 + ((byteTreeBits d.lo).length + ((byteTreeBits d.hi).length + (48 + ((wordNodeBits d.tree).length + 1)))) := by
    simp only [wordTreeBits, List.length_cons, List.length_append, fixed_length, halfBits_length, List.length_nil]
    omega
  rw [wordPresent_eq, rlo]
  simp only [bind, Except.bind, rhi, rmarks, rnodes]
  by_cases hfit : d.tree.count ≤ cap
  · have hextra := appendExtra_growWord (cap := cap) w d.mark d.values (by simpa [WordCode.values] using hfit)
    simp only [if_pos hfit]
    rw [show d.tree.map d.value = d.values from rfl, hextra, ← WordCode.built_eq]
    by_cases htotal : d.total ≤ cap
    · simp only [if_pos htotal, if_pos (show (slotsOf d.mark d.values).2 ≤ cap from htotal)]
      rw [hbits, Cursor.skip_skip, Cursor.skip_skip, Cursor.skip_skip, Cursor.skip_skip, Cursor.skip_skip]
      rfl
    · simp only [if_neg htotal, if_neg (show ¬ (slotsOf d.mark d.values).2 ≤ cap from htotal)]
  · simp only [if_neg hfit, if_neg (show ¬ d.total ≤ cap by omega)]

theorem buildWordTree_present {cap : Nat} {w : WordTree} {c : Cursor} (h : c.bit c.pos = true) :
    buildWordTree cap w c = wordPresent cap (clearWordTree w) (c.skip 1) := by
  simp [buildWordTree, h]

theorem buildWordTree_absent {cap : Nat} {w : WordTree} {c : Cursor} (h : c.bit c.pos = false) :
    buildWordTree cap w c = .ok (wordEmpty w, c.skip 1) := by
  simp [buildWordTree, h]

/-- A word tree inside its capacity is built as the stream shows it. -/
theorem buildWordTree_of_fits {cap : Nat} {d : Option WordCode} {w : WordTree} {c : Cursor}
    (hfits : wordTreeFits cap d) (hs : c.shows c.pos (wordTreeBits d)) :
    buildWordTree cap w c = .ok (wordTreeOf w d, c.skip (wordTreeBits d).length) := by
  cases d with
  | none =>
    rw [buildWordTree_absent ((c.shows_cons _ _ _).1 hs).1]
    rfl
  | some d =>
    obtain ⟨hlegal, htotal⟩ := hfits
    rw [buildWordTree_present ((c.shows_cons _ _ _).1 hs).1, wordPresent_of_shows hlegal hs, if_pos htotal]
    rfl

/-- A stream that takes a word tree past a capacity begins with the bit of a present tree, and raises its cause. -/
theorem wordPresent_of_overfull {cap : Nat} {pat : Pattern} {cause : Cause} {w : WordTree} {c : Cursor}
    (hover : Overfull cap pat cause) (hs : c.shows c.pos pat) :
    c.bit c.pos = true ∧ wordPresent cap (clearWordTree w) (c.skip 1) = .error cause := by
  cases hover with
  | lo t hcount =>
    obtain ⟨hbit, hs⟩ := (c.shows_cons _ _ _).1 hs
    obtain ⟨_, _, hlo⟩ := buildByteTree_of_over (c := c.skip 1) hcount hs
    rw [wordPresent_eq, hlo]
    exact ⟨hbit, rfl⟩
  | hi lo t hlofits hcount =>
    obtain ⟨hbit, hs⟩ := (c.shows_cons _ _ _).1 hs
    obtain ⟨slo, shi⟩ := (c.shows_append _ _ _).1 hs
    have hlo := buildByteTree_of_fits (c := c.skip 1) hlofits slo
    obtain ⟨_, _, hhi⟩ := buildByteTree_of_over (c := (c.skip 1).skip (byteTreeBits lo).length) hcount shi
    rw [wordPresent_eq, hlo]
    simp only [bind, Except.bind, hhi]
    exact ⟨hbit, trivial⟩
  | cells d hlegal htotal =>
    rw [wordPresent_of_shows hlegal hs, if_neg (Nat.not_le.2 htotal)]
    exact ⟨((c.shows_cons _ _ _).1 hs).1, rfl⟩

/-! ### Every tree that is built is sound (R205) -/

/-- A marker's slot is its last place, or one of the cells after the nodes. -/
theorem slotsOf_get (m : Tri Half) (t : CodeTree Half) (j : Fin 3) :
    lastPlace (m.get j) t = some ((slotsOf m t).1.get j) ∨
      (t.count ≤ (slotsOf m t).1.get j ∧ (slotsOf m t).1.get j < (slotsOf m t).2) := by
  cases h : lastPlace (m.get j) t with
  | some p => fin_cases j <;> simp_all [slotsOf, Tri.get]
  | none =>
    right
    fin_cases j <;> simp only [Tri.get] at h <;> simp only [slotsOf, Tri.get, h] <;> split_ifs <;> simp_all <;> omega

theorem soundTree_builtTree {cap : Nat} (flag : Bool) {m : Tri Half} {t : CodeTree Half}
    (hfit : (slotsOf m t).2 ≤ cap) : soundTree cap (builtTree flag m t) := by
  refine .inr ⟨rfl, (builtTree_length flag m t).trans_le hfit, t.map (unmarked m),
    List.replicate ((slotsOf m t).2 - t.count) 0, ?_, ?_, (t.table_map _).symm, fun j => ?_⟩
  · simp only [slotsOf, List.length_replicate]
    split_ifs <;> omega
  · simp [builtTree]
  · rcases slotsOf_get m t j with hplace | ⟨hge, hlt⟩
    · obtain ⟨v, hv⟩ := cells_of_lastPlace (unmarked m) hplace
      have hin := (List.getElem?_eq_some_iff.1 hv).1
      exact ⟨v, (List.getElem?_append_left hin).trans hv⟩
    · refine ⟨0, ?_⟩
      rw [builtTree, List.getElem?_append_right (by simpa using hge), List.getElem?_replicate, if_pos]
      simp only [CodeTree.cells_length, CodeTree.count_map]
      omega

theorem soundTree_wordEmpty (cap : Nat) (w : WordTree) : soundTree cap (wordEmpty w) := .inl ⟨rfl, rfl⟩

/-- Whatever the stream is, a tree that is built is sound and keeps BUILT. -/
theorem buildWordTree_ok {cap : Nat} {w : WordTree} {c : Cursor} {r : WordTree × Cursor}
    (h : buildWordTree cap w c = .ok r) : soundTree cap r.1 ∧ r.1.built = w.built := by
  cases hbit : c.bit c.pos with
  | false =>
    rw [buildWordTree_absent hbit] at h
    cases h
    exact ⟨soundTree_wordEmpty cap w, rfl⟩
  | true =>
    rw [buildWordTree_present hbit] at h
    obtain ⟨m, t, hr, hfit⟩ := wordPresent_ok h
    rw [hr]
    exact ⟨soundTree_builtTree w.built hfit, rfl⟩

theorem buildWordTree_error {cap : Nat} {w : WordTree} {c : Cursor} {cause : Cause}
    (h : buildWordTree cap w c = .error cause) : cause = .byteTreeCapacity ∨ cause = .wordTreeCapacity := by
  cases hbit : c.bit c.pos with
  | false => rw [buildWordTree_absent hbit] at h; cases h
  | true => exact wordPresent_error (buildWordTree_present hbit ▸ h)

end Sys2Proof.Machine
end

section
/-! PROOFS. The bootstrap blob (43_frame_decoder.md R240, 30_encoding.md R100) and the trees past their capacity
(41_byte_tree.md R174, 42_word_tree.md R204): O44, and the tree and blob parts of O22. -/

namespace Sys2Proof.Machine

/-! ### The ends of a command that raises a capacity cause -/

theorem State.raise_phase_of_fatal (s : State) {cause : Cause} (h : cause.code.fatal = true) :
    (s.raise cause).phase = .failed := by
  rw [s.raise_fatal h]
  rfl

theorem Overfull.cause_cases {cap : Nat} {pat : Pattern} {cause : Cause} (h : Overfull cap pat cause) :
    cause = .byteTreeCapacity ∨ cause = .wordTreeCapacity := by
  cases h
  · exact .inl rfl
  · exact .inl rfl
  · exact .inr rfl

/-- A capacity cause is a consistency error, and leads to FAILED. -/
theorem State.raise_capacity (s : State) {cause : Cause} (h : cause = .byteTreeCapacity ∨ cause = .wordTreeCapacity) :
    (s.raise cause).status = { code := .consistencyError, cause := cause } ∧ (s.raise cause).phase = .failed := by
  rcases h with rfl | rfl <;> exact ⟨s.raise_status _, s.raise_phase_of_fatal rfl⟩

/-! ### The bootstrap blob -/

section Blob

variable {g : Cfg} {k : TreeId} {b : Trees × Cursor}

theorem buildOne_of_fits {d : Option WordCode} (hfits : wordTreeFits (g.cap k) d)
    (hs : b.2.shows b.2.pos (wordTreeBits d)) :
    buildOne g k b = .ok (b.1.set k (wordTreeOf (b.1.get k) d), b.2.skip (wordTreeBits d).length) := by
  rw [buildOne, buildWordTree_of_fits hfits hs]
  rfl

theorem buildOne_of_overfull {pat : Pattern} {cause : Cause} (hover : Overfull (g.cap k) pat cause)
    (hs : b.2.shows b.2.pos pat) : buildOne g k b = .error cause := by
  obtain ⟨hbit, hraise⟩ := wordPresent_of_overfull (w := b.1.get k) hover hs
  rw [buildOne, buildWordTree_present hbit, hraise]
  rfl

/-- The trees of a list that a stream shows are all built. -/
theorem foldlM_buildOne_of_fits (trees : TreeId → Option WordCode) : ∀ {ks : List TreeId} {b : Trees × Cursor},
    (∀ k ∈ ks, wordTreeFits (g.cap k) (trees k)) → b.2.fair →
    b.2.shows b.2.pos (ks.flatMap fun k => wordTreeBits (trees k)) →
    ∃ wt, ks.foldlM (fun b k => buildOne g k b) b =
      .ok (wt, b.2.skip (ks.flatMap fun k => wordTreeBits (trees k)).length) := by
  intro ks
  induction ks with
  | nil =>
    intro b _ hfair _
    exact ⟨b.1, by rw [List.flatMap_nil, List.length_nil, Cursor.skip_zero hfair]; rfl⟩
  | cons k ks ih =>
    intro b hfits _ hs
    obtain ⟨hk, hks⟩ := (b.2.shows_append _ _ _).1 hs
    have hone := buildOne_of_fits (hfits k List.mem_cons_self) hk
    obtain ⟨wt, hrest⟩ := ih (b := (b.1.set k (wordTreeOf (b.1.get k) (trees k)),
      b.2.skip (wordTreeBits (trees k)).length)) (fun j hj => hfits j (List.mem_cons_of_mem k hj)) (b.2.skip_fair _) hks
    refine ⟨wt, ?_⟩
    rw [List.foldlM_cons, hone]
    refine hrest.trans ?_
    rw [Cursor.skip_skip, List.flatMap_cons, List.length_append]

/-- The trees from `k` on, in the order of the blob. -/
def treesAfter : TreeId → List TreeId
  | .mmap => [.mclr, .full, .typ]
  | .mclr => [.full, .typ]
  | .full => [.typ]
  | .typ => []

theorem buildFour_eq (k : TreeId) (wt : Trees) (c : Cursor) :
    buildFour g wt c = (treesBefore k ++ k :: treesAfter k).foldlM (fun b k => buildOne g k b) (wt, c) := by
  cases k <;> simp [buildFour, treesBefore, treesAfter]

/-- The first tree of the blob that passes a capacity raises its cause. -/
theorem buildFour_of_overfull {trees : TreeId → Option WordCode} {pat : Pattern} {cause : Cause} {c : Cursor}
    (wt : Trees) (hfits : ∀ j ∈ treesBefore k, wordTreeFits (g.cap j) (trees j)) (hover : Overfull (g.cap k) pat cause)
    (hfair : c.fair) (hs : c.shows c.pos ((treesBefore k).flatMap (fun j => wordTreeBits (trees j)) ++ pat)) :
    buildFour g wt c = .error cause := by
  obtain ⟨hbefore, hk⟩ := (c.shows_append _ _ _).1 hs
  obtain ⟨wt', hbuilt⟩ := foldlM_buildOne_of_fits (b := (wt, c)) trees hfits hfair hbefore
  rw [buildFour_eq k, List.foldlM_append, hbuilt]
  change ((k :: treesAfter k).foldlM (fun b k => buildOne g k b) _ : Except Cause (Trees × Cursor)) = _
  rw [List.foldlM_cons, buildOne_of_overfull hover hk]
  rfl

/-- The four trees of a blob that holds them, each inside its capacity. -/
theorem buildFour_of_fits {mmap mclr full typ : Option WordCode} {wt : Trees} {c : Cursor}
    (hmmap : wordTreeFits (g.cap .mmap) mmap) (hmclr : wordTreeFits (g.cap .mclr) mclr)
    (hfull : wordTreeFits (g.cap .full) full) (htyp : wordTreeFits (g.cap .typ) typ)
    (hs : c.shows c.pos (wordTreeBits mmap ++ wordTreeBits mclr ++ wordTreeBits full ++ wordTreeBits typ)) :
    buildFour g wt c = .ok
      ({ mmap := wordTreeOf wt.mmap mmap, mclr := wordTreeOf wt.mclr mclr
         full := wordTreeOf wt.full full, typ := wordTreeOf wt.typ typ },
        c.skip (wordTreeBits mmap ++ wordTreeBits mclr ++ wordTreeBits full ++ wordTreeBits typ).length) := by
  simp only [Cursor.shows_append, List.length_append] at hs
  obtain ⟨⟨⟨s0, s1⟩, s2⟩, s3⟩ := hs
  rw [buildFour, buildOne_of_fits hmmap s0]
  change (buildOne g .mclr _ >>= _) = _
  rw [buildOne_of_fits hmclr (by simpa [Nat.add_assoc] using s1)]
  change (buildOne g .full _ >>= _) = _
  rw [buildOne_of_fits hfull (by simpa [Nat.add_assoc] using s2)]
  change buildOne g .typ _ = _
  rw [buildOne_of_fits htyp (by simpa [Nat.add_assoc] using s3)]
  simp only [Cursor.skip_skip, List.length_append]
  rfl

end Blob

theorem bootstrap_of_buildFour_error {g : Cfg} {wt : Trees} {blob : List Byte} {cause : Cause}
    (h : buildFour g wt (Cursor.over blob) = .error cause) : bootstrap g wt blob = .error cause := by
  rw [bootstrap, h]
  rfl

theorem bootstrap_of_buildFour_ok {g : Cfg} {wt wt' : Trees} {blob : List Byte} {c : Cursor}
    (h : buildFour g wt (Cursor.over blob) = .ok (wt', c)) (hovr : c.ovr = false) :
    bootstrap g wt blob = .ok (markBuilt wt') := by
  rw [bootstrap, h]
  simp [bind, Except.bind, hovr, pure, Except.pure]

/-- A cursor that has not left its buffer. -/
theorem Cursor.over_skip_ovr {buf : List Byte} {n : Nat} (h : n ≤ 8 * buf.length) :
    ((Cursor.over buf).skip n).ovr = false := by
  simpa [Cursor.over, Cursor.len] using h

theorem exec_buildTrees {s : State} (blob : List Byte) (hp : s.phase = .configured) :
    exec (.buildTrees blob) s =
      .next (s.orRaise (bootstrap s.cfg s.wt blob) fun wt => State.finish { s with wt := wt, phase := .ready }) := by
  change execBuildTrees blob s = _
  simp [execBuildTrees, hp]

end Sys2Proof.Machine

namespace Sys2Proof.Proofs

open Sys2Proof.Machine

/-- Settles O44: the four trees are built one after another, and the blob is long enough for their bits. -/
theorem buildTreesReadsTheBlob : Obligations.BuildTreesReadsTheBlob := by
  intro mmap mclr full typ blob s hp hmmap hmclr hfull htyp pat hs hlen
  have hfour := buildFour_of_fits (g := s.cfg) (wt := s.wt) hmmap hmclr hfull htyp hs
  rw [exec_buildTrees blob hp, bootstrap_of_buildFour_ok hfour (Cursor.over_skip_ovr hlen)]
  rfl

end Sys2Proof.Proofs
end

section
/-! PROOFS. The audio decoder (46_audio.md): what it makes of the chunk a stream shows: O55, O56 and, with the plane
trees, O22. -/

namespace Sys2Proof.Machine

/-! ### The plane trees (R344) -/

theorem buildPlanes_of_fits : ∀ {ds : List ByteCode} {c : Cursor}, (∀ t ∈ ds, byteTreeFits t) → c.fair →
    c.shows c.pos (ds.flatMap byteTreeBits) →
    buildPlanes ds.length c = .ok (ds.map byteTreeOf, c.skip (ds.flatMap byteTreeBits).length) := by
  intro ds
  induction ds with
  | nil =>
    intro c _ hfair _
    exact congrArg (fun c => Except.ok ([], c)) (Cursor.skip_zero hfair).symm
  | cons d ds ih =>
    intro c hfits _ hs
    obtain ⟨hd, hds⟩ := (c.shows_append _ _ _).1 hs
    have hrest := ih (c := c.skip (byteTreeBits d).length) (fun t ht => hfits t (List.mem_cons_of_mem d ht))
      (c.skip_fair _) hds
    rw [List.length_cons, buildPlanes, buildByteTree_of_fits (hfits d List.mem_cons_self) hd]
    simp only [bind, Except.bind, hrest, Cursor.skip_skip, List.flatMap_cons, List.length_append, List.map_cons]
    rfl

/-- A plane tree past its capacity raises BYTE_TREE_CAPACITY. -/
theorem buildPlanes_of_over {t : CodeTree Byte} (hover : 511 < t.count) : ∀ {ds : List ByteCode} {n : Nat} {c : Cursor},
    ds.length < n → (∀ t ∈ ds, byteTreeFits t) →
    c.shows c.pos (ds.flatMap byteTreeBits ++ byteTreeBits (some t)) →
    buildPlanes n c = .error .byteTreeCapacity := by
  intro ds
  induction ds with
  | nil =>
    intro n c hn _ hs
    obtain ⟨n, rfl⟩ : ∃ m, n = m + 1 := ⟨n - 1, by simp at hn; omega⟩
    obtain ⟨_, _, herror⟩ := buildByteTree_of_over hover hs
    rw [buildPlanes, herror]
    rfl
  | cons d ds ih =>
    intro n c hn hfits hs
    obtain ⟨n, rfl⟩ : ∃ m, n = m + 1 := ⟨n - 1, by simp at hn; omega⟩
    rw [List.flatMap_cons, List.append_assoc] at hs
    obtain ⟨hd, hds⟩ := (c.shows_append _ _ _).1 hs
    have hrest := ih (n := n) (c := c.skip (byteTreeBits d).length) (by simpa using hn)
      (fun t ht => hfits t (List.mem_cons_of_mem d ht)) hds
    rw [buildPlanes, buildByteTree_of_fits (hfits d List.mem_cons_self) hd]
    simp only [bind, Except.bind, hrest]

theorem plane_map (ds : List ByteCode) (q : Nat) : plane (ds.map byteTreeOf) q = byteTreeOf (ds.getD q none) := by
  rw [plane, List.getD_eq_getElem?_getD, List.getD_eq_getElem?_getD, List.getElem?_map]
  cases ds[q]? <;> rfl

/-! ### The accumulators (R345 to R349) -/

/-- The format a chunk's two configuration bits say. -/
def ChunkCode.format (d : ChunkCode) : AudioFormat := { st := d.st, b16 := d.b16 }

theorem AudioFormat.planes_eq (f : AudioFormat) :
    f.planes = (if f.st then 2 else 1) * (if f.b16 then 2 else 1) := by
  obtain ⟨st, b16⟩ := f
  cases st <;> cases b16 <;> rfl

/-- The accumulator stands at the level `v`: as 16 bits, or in its low byte. -/
def atLevel (b16 : Bool) (base : Half) (v : Nat) : Prop :=
  if b16 then base.toNat = v else (lowByte base).toNat = v

theorem lowByte_toNat (v : Half) : (lowByte v).toNat = v.toNat % 256 := by simp [lowByte]

theorem highByte_toNat (v : Half) : (highByte v).toNat = v.toNat / 256 := by
  have := v.isLt
  rw [highByte, toNat_field]
  omega

theorem joinBytes_toNat (hi lo : Byte) : (joinBytes hi lo).toNat = hi.toNat * 256 + lo.toNat := toNat_append_eq hi lo

theorem joinBytes_bytes (v : Half) : joinBytes (highByte v) (lowByte v) = v := by
  apply BitVec.eq_of_toNat_eq
  rw [joinBytes_toNat, lowByte_toNat, highByte_toNat]
  omega

/-- Inverting the top bit is adding 128 mod 256. -/
theorem xor_topBit (x : Byte) : x ^^^ 0x80 = BitVec.ofNat 8 ((x.toNat + 128) % 256) := by
  revert x
  decide

/-- The sample a level is emitted as (R346). -/
theorem toSample_of_atLevel {d : ChunkCode} {base : Half} {v : Nat} (h : atLevel d.b16 base v) :
    toSample d.b16 base = d.sample v := by
  unfold atLevel at h
  unfold toSample ChunkCode.sample
  cases hb : d.b16 with
  | true =>
    rw [hb, if_pos rfl] at h
    rw [if_pos rfl, if_pos rfl, ← h, BitVec.ofNat_toNat, BitVec.setWidth_eq]
  | false =>
    rw [hb, if_neg Bool.false_ne_true] at h
    rw [if_neg Bool.false_ne_true, if_neg Bool.false_ne_true, xor_topBit, h]

/-- A u16 field is its low byte's bits, then its high byte's. -/
theorem halfBits_joinBytes (hi lo : Byte) : halfBits (joinBytes hi lo) = byteBits lo ++ byteBits hi := by
  apply List.ext_getElem (by simp)
  intro k hk _
  have hk : k < 16 := by simpa using hk
  have hbit : (joinBytes hi lo).getLsbD k = if k < 8 then lo.getLsbD k else hi.getLsbD (k - 8) :=
    BitVec.getLsbD_append
  rw [List.getElem_append]
  by_cases h : k < 8 <;> simp [halfBits, byteBits, hbit, h]

/-- A base sample of the stream is the level before the first delta (R345). -/
theorem readBase_of_shows {d : ChunkCode} {v : Half} {c : Cursor} (hs : c.shows c.pos (d.baseBits v)) :
    (readBase d.b16 c).2 = c.skip (d.baseBits v).length ∧
      atLevel d.b16 (readBase d.b16 c).1 (v.toNat % (if d.b16 then 65536 else 256)) := by
  unfold ChunkCode.baseBits at hs ⊢
  unfold readBase atLevel
  cases hb : d.b16 with
  | true =>
    simp only [hb, if_true] at hs ⊢
    rw [← halfBits_joinBytes] at hs ⊢
    rw [Cursor.readHalf_of_shows hs]
    have hv := v.isLt
    have hlow : lowByte (joinBytes (v.extractLsb' 0 8) (v.extractLsb' 8 8)) = highByte v :=
      BitVec.extractLsb'_append_eq_right
    have hhigh : highByte (joinBytes (v.extractLsb' 0 8) (v.extractLsb' 8 8)) = lowByte v :=
      BitVec.extractLsb'_append_eq_left
    rw [hlow, hhigh, joinBytes_bytes]
    exact ⟨by simp, by omega⟩
  | false =>
    simp only [hb, if_neg Bool.false_ne_true] at hs ⊢
    rw [Cursor.readByte_of_shows hs]
    simp [lowByte]

/-- The bits of channel `k` in a frame: one code, or the low code and then the high code (R347). -/
def ChunkCode.channelBits (d : ChunkCode) (f : List (List Bool)) (k : Nat) : List Bool :=
  if d.b16 then f.getD (2 * k) [] ++ f.getD (2 * k + 1) [] else f.getD k []

/-- A delta of the stream raises the accumulator's level, mod 2^8 or 2^16 (R347). -/
theorem channelDelta_of_shows {d : ChunkCode} {f : List (List Bool)} {k v : Nat} {base : Half} {c : Cursor}
    (hcode : ∀ q, q < (if d.b16 then 2 * k + 2 else k + 1) →
      (byteCodeOf (d.planes.getD q none) (f.getD q [])).isSome)
    (hfair : c.fair) (hs : c.shows c.pos (fixed (d.channelBits f k))) (hbase : atLevel d.b16 base v) :
    (channelDelta d.b16 (d.planes.map byteTreeOf) k base c).2 = c.skip (d.channelBits f k).length ∧
      atLevel d.b16 (channelDelta d.b16 (d.planes.map byteTreeOf) k base c).1
        ((v + d.delta k f) % (if d.b16 then 65536 else 256)) := by
  unfold ChunkCode.channelBits at hs ⊢
  unfold channelDelta ChunkCode.delta ChunkCode.planeByte
  unfold atLevel at hbase ⊢
  cases hb : d.b16 with
  | true =>
    simp only [hb, if_true] at hs hcode hbase ⊢
    obtain ⟨lo, hlo⟩ := Option.isSome_iff_exists.1 (hcode (2 * k) (by omega))
    obtain ⟨hi, hhi⟩ := Option.isSome_iff_exists.1 (hcode (2 * k + 1) (by omega))
    rw [fixed_append] at hs
    obtain ⟨slo, shi⟩ := (c.shows_append _ _ _).1 hs
    have rlo := byteGetCode_of_code hlo hfair slo
    have rhi := byteGetCode_of_code (c := c.skip (f.getD (2 * k) []).length) hhi (c.skip_fair _)
      (by simpa using shi)
    simp only [plane_map, rlo, rhi, hlo, hhi, Cursor.skip_skip, List.length_append, Option.getD_some]
    refine ⟨trivial, ?_⟩
    rw [BitVec.toNat_add, joinBytes_toNat, hbase]
    omega
  | false =>
    simp only [hb, if_neg Bool.false_ne_true] at hs hcode hbase ⊢
    obtain ⟨x, hx⟩ := Option.isSome_iff_exists.1 (hcode k (by omega))
    have rx := byteGetCode_of_code hx hfair hs
    simp only [plane_map, rx, hx, Option.getD_some]
    refine ⟨trivial, ?_⟩
    rw [lowByte_toNat, BitVec.toNat_setWidth, BitVec.toNat_add, hbase]
    omega

/-- The accumulators before the first delta are the bases. -/
theorem ChunkCode.level_zero (d : ChunkCode) (k : Nat) :
    d.level k 0 = (if k = 0 then d.left else d.right).toNat % (if d.b16 then 65536 else 256) := by
  simp [ChunkCode.level]

theorem ChunkCode.level_succ (d : ChunkCode) (k : Nat) {n : Nat} (hn : n < d.frames.length) :
    d.level k (n + 1) = (d.level k n + d.delta k d.frames[n]) % (if d.b16 then 65536 else 256) := by
  have htake : d.frames.take (n + 1) = d.frames.take n ++ [d.frames[n]] := by simp
  rw [ChunkCode.level, ChunkCode.level, Nat.mod_add_mod, htake, List.map_append, List.sum_append, Nat.add_assoc]
  simp

/-! ### The frames -/

/-- The state of the decoder once output frame `n` is out. -/
structure AudioAt (d : ChunkCode) (n : Nat) (a : AudioState) : Prop where
  left : atLevel d.b16 a.base0 (d.level 0 n)
  right : d.st = true → atLevel d.b16 a.base1 (d.level 1 n)
  out : a.samples = (List.range (n + 1)).flatMap d.outFrame

/-- The emission of a frame appends it to OUT and changes no accumulator (R346). -/
theorem emitFrame_of_atLevel {d : ChunkCode} {n : Nat} {a : AudioState} (hleft : atLevel d.b16 a.base0 (d.level 0 n))
    (hright : d.st = true → atLevel d.b16 a.base1 (d.level 1 n))
    (hout : a.samples = (List.range n).flatMap d.outFrame) :
    AudioAt d n (emitFrame d.format a) ∧ (emitFrame d.format a).cur = a.cur := by
  have h0 := toSample_of_atLevel hleft
  cases hst : d.st with
  | true =>
    have h1 := toSample_of_atLevel (hright hst)
    have hemit : emitFrame d.format a = emit d.format (d.sample (d.level 1 n))
        (emit d.format (d.sample (d.level 0 n)) a) := by
      simp [emitFrame, ChunkCode.format, hst, h0, h1]
    rw [hemit]
    exact ⟨⟨hleft, hright, by simp [emit, hout, List.range_succ, ChunkCode.outFrame, hst]⟩, rfl⟩
  | false =>
    have hemit : emitFrame d.format a = emit d.format (d.sample (d.level 0 n)) a := by
      simp [emitFrame, ChunkCode.format, hst, h0]
    rw [hemit]
    exact ⟨⟨hleft, hright, by simp [emit, hout, List.range_succ, ChunkCode.outFrame, hst]⟩, rfl⟩

/-- A frame of NP codes is its channels' bits, left then right. -/
theorem ChunkCode.frameBits {d : ChunkCode} {f : List (List Bool)} (hlen : f.length = d.np) :
    f.flatMap fixed = fixed (d.channelBits f 0) ++ if d.st then fixed (d.channelBits f 1) else [] := by
  have hf : f = (List.range d.np).map fun q => f.getD q [] :=
    List.ext_getElem (by simp [hlen]) fun q hq _ => by simp [hq]
  calc f.flatMap fixed = (List.range d.np).flatMap fun q => fixed (f.getD q []) := by
        conv_lhs => rw [hf, List.flatMap_map]
    _ = _ := by
        unfold ChunkCode.channelBits ChunkCode.np
        cases d.st <;> cases d.b16 <;> simp [List.range_succ]

/-- A delta frame that a stream shows: the next levels are out, and its codes are consumed (R347). -/
theorem deltaFrame_of_shows {d : ChunkCode} {n : Nat} {a : AudioState} (hn : n < d.frames.length)
    (hlen : d.frames[n].length = d.np)
    (hcodes : ∀ q, q < d.np → (byteCodeOf (d.planes.getD q none) (d.frames[n].getD q [])).isSome) (hat : AudioAt d n a)
    (hfair : a.cur.fair) (hs : a.cur.shows a.cur.pos (d.frames[n].flatMap fixed)) :
    AudioAt d (n + 1) (deltaFrame d.format (d.planes.map byteTreeOf) a) ∧
      (deltaFrame d.format (d.planes.map byteTreeOf) a).cur = a.cur.skip (d.frames[n].flatMap fixed).length := by
  obtain ⟨hleft, hright, hout⟩ := hat
  rw [ChunkCode.frameBits hlen] at hs ⊢
  obtain ⟨sl, sr⟩ := (a.cur.shows_append _ _ _).1 hs
  obtain ⟨hlcur, hl⟩ := channelDelta_of_shows (k := 0)
    (fun q hq => hcodes q (by unfold ChunkCode.np; split_ifs at hq ⊢ <;> omega)) hfair sl hleft
  rw [← d.level_succ 0 hn] at hl
  cases hst : d.st with
  | true =>
    rw [hst, if_pos rfl] at sr
    have hcodesr : ∀ q, q < (if d.b16 then 2 * 1 + 2 else 1 + 1) →
        (byteCodeOf (d.planes.getD q none) (d.frames[n].getD q [])).isSome := fun q hq =>
      hcodes q (by rw [ChunkCode.np, hst, if_pos rfl]; split_ifs at hq ⊢ <;> omega)
    obtain ⟨hrcur, hr⟩ := channelDelta_of_shows (k := 1) (c := a.cur.skip (d.channelBits d.frames[n] 0).length)
      hcodesr (a.cur.skip_fair _) (by simpa using sr) (hright hst)
    rw [← d.level_succ 1 hn] at hr
    have hdelta : deltaFrame d.format (d.planes.map byteTreeOf) a = emitFrame d.format
        { a with
          base0 := (channelDelta d.b16 (d.planes.map byteTreeOf) 0 a.base0 a.cur).1
          base1 := (channelDelta d.b16 (d.planes.map byteTreeOf) 1 a.base1
            (a.cur.skip (d.channelBits d.frames[n] 0).length)).1
          cur := a.cur.skip (d.channelBits d.frames[n] 0).length |>.skip (d.channelBits d.frames[n] 1).length } := by
      rw [← hrcur, ← hlcur]
      simp [deltaFrame, ChunkCode.format, hst]
    rw [hdelta, List.length_append, fixed_length, if_pos rfl, fixed_length, ← Cursor.skip_skip]
    exact emitFrame_of_atLevel hl (fun _ => hr) hout
  | false =>
    have hdelta : deltaFrame d.format (d.planes.map byteTreeOf) a = emitFrame d.format
        { a with
          base0 := (channelDelta d.b16 (d.planes.map byteTreeOf) 0 a.base0 a.cur).1
          cur := a.cur.skip (d.channelBits d.frames[n] 0).length } := by
      rw [← hlcur]
      simp [deltaFrame, ChunkCode.format, hst]
    rw [hdelta, if_neg Bool.false_ne_true, List.append_nil, fixed_length]
    exact emitFrame_of_atLevel hl (fun h => absurd h (by simp [hst])) hout

/-- The delta frames that are left. -/
theorem deltaFrames_of_shows {d : ChunkCode} (hlegal : d.legal) : ∀ {m n : Nat} {a : AudioState},
    n + m = d.frames.length → AudioAt d n a → a.cur.fair →
    a.cur.shows a.cur.pos ((d.frames.drop n).flatMap fun f => f.flatMap fixed) →
    AudioAt d d.frames.length (deltaFrames d.format (d.planes.map byteTreeOf) m a) ∧
      (deltaFrames d.format (d.planes.map byteTreeOf) m a).cur =
        a.cur.skip ((d.frames.drop n).flatMap fun f => f.flatMap fixed).length := by
  intro m
  induction m with
  | zero =>
    intro n a hn hat hfair _
    obtain rfl : n = d.frames.length := hn
    refine ⟨hat, ?_⟩
    rw [List.drop_length]
    exact (Cursor.skip_zero hfair).symm
  | succ m ih =>
    intro n a hn hat hfair hs
    have hlt : n < d.frames.length := by omega
    rw [List.drop_eq_getElem_cons hlt, List.flatMap_cons] at hs ⊢
    obtain ⟨hframe, hrest⟩ := (a.cur.shows_append _ _ _).1 hs
    obtain ⟨hlen, hcodes⟩ := hlegal.2.2 d.frames[n] (List.getElem_mem hlt)
    obtain ⟨hat', hcur'⟩ := deltaFrame_of_shows hlt hlen hcodes hat hfair hframe
    have hfair' : (deltaFrame d.format (d.planes.map byteTreeOf) a).cur.fair := hcur' ▸ Cursor.skip_fair _ _
    obtain ⟨hend, hcur⟩ := ih (n := n + 1) (by omega) hat' hfair' (by rw [hcur']; exact hrest)
    rw [deltaFrames, List.length_append, ← Cursor.skip_skip, ← hcur']
    exact ⟨hend, hcur⟩

/-- The base samples of the stream, right first, and frame 0 out (R345, R346). -/
theorem firstFrame_of_shows {d : ChunkCode} {a : AudioState} (hout : a.samples = [])
    (hs : a.cur.shows a.cur.pos ((if d.st then d.baseBits d.right else []) ++ d.baseBits d.left)) :
    AudioAt d 0 (emitFrame d.format (readBases d.format a)) ∧
      (emitFrame d.format (readBases d.format a)).cur =
        a.cur.skip ((if d.st then d.baseBits d.right else []) ++ d.baseBits d.left).length := by
  obtain ⟨sr, sl⟩ := (a.cur.shows_append _ _ _).1 hs
  cases hst : d.st with
  | true =>
    rw [hst, if_pos rfl] at sr sl
    obtain ⟨hrcur, hr⟩ := readBase_of_shows sr
    obtain ⟨hlcur, hl⟩ := readBase_of_shows (c := a.cur.skip (d.baseBits d.right).length) sl
    have hbases : readBases d.format a =
        { a with
          base0 := (readBase d.b16 (a.cur.skip (d.baseBits d.right).length)).1
          base1 := (readBase d.b16 a.cur).1
          cur := (a.cur.skip (d.baseBits d.right).length).skip (d.baseBits d.left).length } := by
      rw [← hlcur, ← hrcur]
      simp [readBases, ChunkCode.format, hst]
    rw [hbases, if_pos rfl, List.length_append, ← Cursor.skip_skip]
    exact emitFrame_of_atLevel (d.level_zero 0 ▸ hl) (fun _ => d.level_zero 1 ▸ hr) hout
  | false =>
    rw [hst, if_neg Bool.false_ne_true] at sl
    obtain ⟨hlcur, hl⟩ := readBase_of_shows sl
    have hbases : readBases d.format a =
        { a with base0 := (readBase d.b16 a.cur).1, cur := a.cur.skip (d.baseBits d.left).length } := by
      rw [← hlcur]
      simp [readBases, ChunkCode.format, hst]
    rw [hbases, if_neg Bool.false_ne_true, List.nil_append]
    exact emitFrame_of_atLevel (d.level_zero 0 ▸ hl) (fun h => absurd h (by simp [hst])) hout

/-! ### A chunk with data (R340) -/

theorem ChunkCode.planes_format (d : ChunkCode) : d.format.planes = d.np := d.format.planes_eq

theorem ChunkCode.np_pos (d : ChunkCode) : 0 < d.np := by
  unfold ChunkCode.np
  split_ifs <;> decide

/-- The stream bits of a chunk after its three configuration bits. -/
def ChunkCode.body (d : ChunkCode) : Pattern :=
  d.planes.flatMap byteTreeBits ++ ((if d.st then d.baseBits d.right else []) ++ d.baseBits d.left) ++
    d.frames.flatMap fun f => f.flatMap fixed

theorem ChunkCode.bits_eq (d : ChunkCode) : d.bits = some true :: some d.st :: some d.b16 :: d.body := by
  simp only [ChunkCode.bits, ChunkCode.body, List.append_assoc]

/-- The checks passed, the chunk is decoded: its samples, and an overrun where the stream is too short. -/
theorem audioBody_of_shows {d : ChunkCode} {info : Word} {unpacked : Nat} {a : AudioState} (hlegal : d.legal)
    (hst : infoIsStereo info = d.st) (hb16 : infoIs16Bit info = d.b16)
    (hsize : unpacked = d.np * (d.frames.length + 1)) (hout : a.samples = []) (hfair : a.cur.fair)
    (hs : a.cur.shows a.cur.pos d.body) (hovr : (a.cur.skip d.body.length).ovr = false) :
    ∃ r, audioBody info unpacked d.format a = .ok r ∧ r.samples = d.out := by
  obtain ⟨hnp, hfits, _⟩ := id hlegal
  obtain ⟨hs, sframes⟩ := (a.cur.shows_append _ _ _).1 hs
  obtain ⟨splanes, sbases⟩ := (a.cur.shows_append _ _ _).1 hs
  have hpos := d.np_pos
  have hchecks : ¬ (d.format.st ≠ infoIsStereo info ∨ d.format.b16 ≠ infoIs16Bit info) := by
    simp [ChunkCode.format, hst, hb16]
  have hfitsSize : sizeFits d.format unpacked = true := by
    simp [sizeFits, ChunkCode.planes_format, hsize, Nat.le_mul_of_pos_right]
  have hframes : unpacked / d.np - 1 = d.frames.length := by
    rw [hsize, Nat.mul_div_cancel_left _ hpos]
    omega
  have hplanes := buildPlanes_of_fits hfits hfair splanes
  obtain ⟨hfirst, hfirstCur⟩ := firstFrame_of_shows (d := d)
    (a := { a with cur := a.cur.skip (d.planes.flatMap byteTreeBits).length }) hout sbases
  obtain ⟨hend, hcur⟩ := deltaFrames_of_shows hlegal (Nat.zero_add _) hfirst (hfirstCur ▸ Cursor.skip_fair _ _)
    (by rw [hfirstCur]; simpa [Nat.add_assoc] using sframes)
  refine ⟨_, ?_, hend.out⟩
  rw [audioBody, if_neg hchecks, hfitsSize, if_neg (by decide), ChunkCode.planes_format, ← hnp, hplanes, hnp, hframes]
  rw [hfirstCur, List.drop_zero, Cursor.skip_skip, Cursor.skip_skip] at hcur
  simp only [ChunkCode.body, List.length_append, ← Nat.add_assoc] at hovr hcur
  simp only [bind, Except.bind, hcur, hovr]
  rfl

/-- The two configuration bits are read first. -/
theorem audioPresent_of_bits {info : Word} {unpacked : Nat} {a : AudioState} {st b16 : Bool}
    (hst : a.cur.bit a.cur.pos = st) (hb16 : a.cur.bit (a.cur.pos + 1) = b16) :
    audioPresent info unpacked a = audioBody info unpacked { st := st, b16 := b16 } { a with cur := a.cur.skip 2 } := by
  simp [audioPresent, hst, hb16, Cursor.skip_skip]

theorem audioPresent_of_shows {d : ChunkCode} {info : Word} {unpacked : Nat} {a : AudioState} (hlegal : d.legal)
    (hst : infoIsStereo info = d.st) (hb16 : infoIs16Bit info = d.b16)
    (hsize : unpacked = d.np * (d.frames.length + 1)) (hout : a.samples = [])
    (hs : a.cur.shows a.cur.pos (some d.st :: some d.b16 :: d.body))
    (hovr : (a.cur.skip (2 + d.body.length)).ovr = false) :
    ∃ r, audioPresent info unpacked a = .ok r ∧ r.samples = d.out := by
  obtain ⟨hbit1, hs⟩ := (a.cur.shows_cons _ _ _).1 hs
  obtain ⟨hbit2, hs⟩ := (a.cur.shows_cons _ _ _).1 hs
  rw [audioPresent_of_bits hbit1 hbit2]
  exact audioBody_of_shows (a := { a with cur := a.cur.skip 2 }) hlegal hst hb16 hsize hout (a.cur.skip_fair 2) hs
    (by rw [Cursor.skip_skip]; exact hovr)

/-- The checks passed, a plane tree past its capacity ends the chunk. -/
theorem audioPresent_of_over {st b16 : Bool} {planes : List ByteCode} {t : CodeTree Byte} {info : Word}
    {unpacked : Nat} {a : AudioState} (hst : infoIsStereo info = st) (hb16 : infoIs16Bit info = b16)
    (hsize : sizeFits { st := st, b16 := b16 } unpacked = true)
    (hlen : planes.length < AudioFormat.planes { st := st, b16 := b16 }) (hfits : ∀ p ∈ planes, byteTreeFits p)
    (hover : 511 < t.count)
    (hs : a.cur.shows a.cur.pos (some st :: some b16 :: (planes.flatMap byteTreeBits ++ byteTreeBits (some t)))) :
    audioPresent info unpacked a = .error .byteTreeCapacity := by
  obtain ⟨hbit1, hs⟩ := (a.cur.shows_cons _ _ _).1 hs
  obtain ⟨hbit2, hs⟩ := (a.cur.shows_cons _ _ _).1 hs
  have hplanes := buildPlanes_of_over (c := a.cur.skip 2) hover hlen hfits hs
  rw [audioPresent_of_bits hbit1 hbit2, audioBody, if_neg (by simp [hst, hb16]), hsize, if_neg (by decide), hplanes]
  rfl

theorem decodeChunk_present {info : Word} {unpacked : Nat} {chunk : List Byte} (h : (Cursor.over chunk).bit 0 = true) :
    decodeChunk info unpacked chunk =
      (audioPresent info unpacked { audioStart chunk with cur := (Cursor.over chunk).skip 1 }).map
        fun r => some r.samples := by
  have hbit : (audioStart chunk).cur.readBit.1 = true := h
  rw [decodeChunk, if_pos hbit]
  rfl

theorem audioDispatch_ok {g : Cfg} {track : BitVec 3} {info : Word} (hinfo : g.audio[track.toNat]? = some info)
    (haudio : info.getLsbD 30 = true) (hdpcm : info.getLsbD 31 = true) : audioDispatch g track = .ok info := by
  have h : g.audioInfo track = some info := hinfo
  simp [audioDispatch, h, infoHasAudio, haudio, infoDpcm, hdpcm]

/-- How a decoded chunk ends the command: with its samples, or, having no data, with none. -/
def State.deliverChunk (s : State) (info : Word) : Option (List Sample) → State
  | none => s.deliverNothing
  | some samples => s.deliver info samples

/-- DECODE_AUDIO of a track that is decoded, in a phase that admits it. -/
theorem exec_decodeAudio {s : State} {track : BitVec 3} {info : Word} (chunk : List Byte) (unpacked : Word)
    (hp : s.phase = .configured ∨ s.phase = .ready) (hdispatch : audioDispatch s.cfg track = .ok info) :
    exec (.decodeAudio track chunk unpacked) s =
      .next (s.orRaise (decodeChunk info unpacked.toNat chunk) (s.deliverChunk info)) := by
  have hopen : s.phase.isOpen = true := by rcases hp with hp | hp <;> rw [hp] <;> rfl
  change execDecodeAudio track chunk unpacked s = _
  rw [execDecodeAudio, hopen, State.whenAdmitted_true, State.decodeAudio, hdispatch, State.orRaise_ok]
  refine congrArg Host.Outcome.next (congrArg (s.orRaise _) (funext fun r => ?_))
  cases r <;> rfl

end Sys2Proof.Machine

namespace Sys2Proof.Proofs

open Sys2Proof.Machine

/-- Settles O55: the chunk's first bit is 1, its rest decodes to its samples, and it is long enough. -/
theorem presentAudioEffect : Obligations.PresentAudioEffect := by
  intro d track chunk unpacked info s hp hinfo haudio hdpcm hst hb16 hlegal hsize hs hlen
  rw [d.bits_eq] at hs hlen
  obtain ⟨hbit, hs⟩ := (Cursor.shows_cons _ _ _ _).1 hs
  obtain ⟨r, hr, hout⟩ := audioPresent_of_shows (info := info)
    (a := { audioStart chunk with cur := (Cursor.over chunk).skip 1 }) hlegal hst hb16 hsize rfl hs
    (by
      rw [Cursor.skip_skip]
      exact Cursor.over_skip_ovr (by simp only [List.length_cons] at hlen; omega))
  rw [exec_decodeAudio chunk unpacked hp (audioDispatch_ok hinfo haudio hdpcm), decodeChunk_present hbit, hr, ← hout]
  rfl

/-- Settles O56: the rest of the chunk decodes as in DECODE_AUDIO, from the running command's cursor. -/
theorem audioHeaderEffects : Obligations.AudioHeaderEffects := by
  refine ⟨fun d info s hinfo haudio hdpcm hst hb16 hlegal hsize hout hs hovr hlen => ?_, fun s => rfl⟩
  rw [d.bits_eq] at hs hlen
  obtain ⟨_, hs⟩ := (Cursor.shows_cons _ _ _ _).1 hs
  obtain ⟨r, hr, hsamples⟩ := audioPresent_of_shows (info := info) (a := s.audio) hlegal hst hb16 hsize hout hs
    (by
      have hend : s.work.cur.pos + (1 + (2 + d.body.length)) ≤ 8 * s.work.cur.len := by
        rw [Cursor.len]; simp only [List.length_cons] at hlen; omega
      rw [State.audio, Cursor.skip_skip, Cursor.skip_ovr, hovr, decide_eq_false (Nat.not_lt.2 hend)]
      rfl)
  change execAudPresent s = _
  rw [execAudPresent, audioDispatch_ok hinfo haudio hdpcm, State.orRaise_ok, hr, ← hsamples]
  rfl

/-- Settles O22: the tree that does not fit raises its cause, wherever its construction stands. -/
theorem treeCapacities : Obligations.TreeCapacities := by
  refine ⟨fun dst t s hcount hs => ?byte, fun k pat cause s hover hs => ?word,
    fun k trees pat cause blob s hp hfits hover hs => ?blob,
    fun st b16 planes t track chunk unpacked info s hp hinfo haudio hdpcm hst hb16 hle hmod hlen hfits hcount hs =>
      ?audio⟩
  case byte =>
    obtain ⟨_, hpresent, hbuild⟩ := buildByteTree_of_over hcount hs
    refine ⟨s.raise .byteTreeCapacity, ?_, ?_, s.raise_capacity (.inl rfl)⟩
    · change execByteBuild dst s = _
      rw [execByteBuild, hbuild, State.orRaise_error]
    · change execBtPresent dst s = _
      rw [execBtPresent, hpresent, State.orRaise_error]
  case word =>
    obtain ⟨hbit, hpresent⟩ := wordPresent_of_overfull (w := s.wt.get k) hover hs
    refine ⟨s.raise cause, ?_, ?_, s.raise_capacity hover.cause_cases⟩
    · change execWordBuild k s = _
      rw [execWordBuild, buildWordTree_present hbit, Cfg.cap, hpresent, State.orRaise_error]
    · change execWtPresent k s = _
      rw [execWtPresent, Cfg.cap, hpresent, State.orRaise_error]
  case blob =>
    have hfour := buildFour_of_overfull s.wt hfits hover (Cursor.over_fair blob) hs
    refine ⟨s.raise cause, ?_, s.raise_capacity hover.cause_cases⟩
    rw [exec_buildTrees blob hp, bootstrap_of_buildFour_error hfour, State.orRaise_error]
  case audio =>
    obtain ⟨hbit, hs⟩ := (Cursor.shows_cons _ _ _ _).1 hs
    have hnp := AudioFormat.planes_eq { st := st, b16 := b16 }
    have hsize : sizeFits { st := st, b16 := b16 } unpacked.toNat = true := by
      rw [sizeFits, hnp, decide_eq_true hle, hmod]; rfl
    have hraise := audioPresent_of_over (a := { audioStart chunk with cur := (Cursor.over chunk).skip 1 })
      hst hb16 hsize (by rw [hnp]; exact hlen) hfits hcount hs
    refine ⟨s.raise .byteTreeCapacity, ?_, s.raise_capacity (.inl rfl)⟩
    rw [exec_decodeAudio chunk unpacked hp (audioDispatch_ok hinfo haudio hdpcm), decodeChunk_present hbit, hraise]
    rfl

end Sys2Proof.Proofs
end

section
/-! PROOFS. The pixels of a block (43_frame_decoder.md R242, R245): what PutRow writes, where, and what it leaves; and
O37. -/

namespace Sys2Proof.Machine

/-! ### Pixel addresses -/

/-- An address is one row and one column of the surface. -/
theorem address_unique {w x x' y y' : Nat} (hx : x < w) (hx' : x' < w) (h : y * w + x = y' * w + x') :
    y = y' ∧ x = x' := by
  have hy : y = y' := by
    have hdiv := congrArg (· / w) h
    simpa [Nat.mul_add_div (Nat.zero_lt_of_lt hx), Nat.mul_comm _ w, Nat.div_eq_of_lt hx, Nat.div_eq_of_lt hx']
      using hdiv
  subst hy
  exact ⟨rfl, by omega⟩

section Block

variable {g : Cfg} {blk : Nat}

/-- A block of the grid lies inside the surface's columns. -/
theorem block_column_lt (hblk : blk < g.nb) {col : Nat} (hcol : col < 4) : 4 * (blk % g.bw) + col < g.w.toNat := by
  have hbw : 0 < g.bw := Nat.pos_of_ne_zero fun h => by simp [Cfg.nb, h] at hblk
  have hx : blk % g.bw < g.bw := Nat.mod_lt _ hbw
  have hw : 4 * g.bw ≤ g.w.toNat := Nat.mul_div_le _ _
  omega

/-- A pixel of a block has one row and one column of it. -/
theorem onPixel_unique (hblk : blk < g.nb) {r r' col col' a : Nat} (h : onPixel g blk r col a)
    (h' : onPixel g blk r' col' a) : r = r' ∧ col = col' := by
  obtain ⟨_, hcol, j, hj, rfl⟩ := h
  obtain ⟨_, hcol', j', hj', ha⟩ := h'
  obtain ⟨hy, hx⟩ := address_unique (block_column_lt hblk hcol) (block_column_lt hblk hcol') ha
  refine ⟨?_, by omega⟩
  have hrow : r * g.d + j = r' * g.d + j' := by omega
  exact (address_unique hj hj' hrow).1

/-! ### PutRow -/

/-- The pixel of a row in a column. -/
def Row.pixel (row : Row) : Nat → Byte
  | 0 => row.p0
  | 1 => row.p1
  | 2 => row.p2
  | _ => row.p3

/-- The first `n` surface rows of a logical row. -/
def putRows (g : Cfg) (x top : Nat) (row : Row) (n : Nat) (surf : Memory Byte) : Memory Byte :=
  (List.range n).foldl (fun m j => putPixels g x (top + j) row m) surf

theorem putRow_eq (g : Cfg) (blk r : Nat) (row : Row) (surf : Memory Byte) :
    putRow g blk r row surf = putRows g (4 * (blk % g.bw)) (rowTop g blk r) row g.d surf := rfl

theorem putRows_succ (g : Cfg) (x top : Nat) (row : Row) (n : Nat) (surf : Memory Byte) :
    putRows g x top row (n + 1) surf = putPixels g x (top + n) row (putRows g x top row n surf) := by
  simp [putRows, List.range_succ]

/-- What every write of PutRow keeps, PutRow keeps; its writes are at the row's pixels. -/
theorem putRow_induct {P : Memory Byte → Prop} {r : Nat} (hr : r < 4) {surf : Memory Byte} (row : Row)
    (hwrite : ∀ m a v, (∃ col, onPixel g blk r col a) → P m → P (m.write a v)) (h : P surf) :
    P (putRow g blk r row surf) := by
  have hrows : ∀ n, n ≤ g.d → P (putRows g (4 * (blk % g.bw)) (rowTop g blk r) row n surf) := by
    intro n
    induction n with
    | zero => intro _; exact h
    | succ n ih =>
      intro hn
      have hon : ∀ col, col < 4 →
          ∃ col', onPixel g blk r col' (pixelAddr g (4 * (blk % g.bw) + col) (rowTop g blk r + n)) :=
        fun col hcol => ⟨col, hr, hcol, n, hn, rfl⟩
      rw [putRows_succ]
      exact hwrite _ _ _ (hon 3 (by decide)) (hwrite _ _ _ (hon 2 (by decide)) (hwrite _ _ _ (hon 1 (by decide))
        (hwrite _ _ _ (hon 0 (by decide)) (ih (by omega)))))
  rw [putRow_eq]
  exact hrows g.d (Nat.le_refl _)

/-- The same of a whole block. -/
theorem putBlock_induct {P : Memory Byte → Prop} {surf : Memory Byte} (rows : Nat → Row)
    (hwrite : ∀ m a v, onBlock g blk a → P m → P (m.write a v)) (h : P surf) : P (putBlock g blk rows surf) := by
  have hrow : ∀ r, r < 4 → ∀ m, P m → P (putRow g blk r (rows r) m) := fun r hr m hm =>
    putRow_induct hr (rows r) (fun m a v hon => hwrite m a v ⟨r, hon⟩) hm
  exact hrow 3 (by decide) _ (hrow 2 (by decide) _ (hrow 1 (by decide) _ (hrow 0 (by decide) _ h)))

/-- A write elsewhere leaves a pixel as it was. -/
theorem pixelAt_write_other {m : Memory Byte} {a b : Nat} (h : b ≠ a) (v : Byte) :
    pixelAt (m.write a v) b = pixelAt m b := Memory.read_write_other _ m h v

/-- PutRow changes its own pixels only. -/
theorem putRow_off {r : Nat} (hr : r < 4) (row : Row) (surf : Memory Byte) {a : Nat}
    (h : ∀ col, ¬ onPixel g blk r col a) : pixelAt (putRow g blk r row surf) a = pixelAt surf a := by
  refine putRow_induct (P := fun m => pixelAt m a = pixelAt surf a) hr row (fun m b v ⟨col, hon⟩ hm => ?_) rfl
  have hne : a ≠ b := fun hab => h col (hab ▸ hon)
  rw [pixelAt_write_other hne, hm]

theorem putPixels_pixel (g : Cfg) (x y : Nat) (row : Row) (surf : Memory Byte) {col : Nat} (hcol : col < 4) :
    pixelAt (putPixels g x y row surf) (y * g.w.toNat + (x + col)) = row.pixel col := by
  have hne : ∀ {k l : Nat}, k ≠ l → pixelAddr g (x + k) y ≠ pixelAddr g (x + l) y := fun h e => by
    simp only [pixelAddr] at e
    omega
  have hsame : ∀ (m : Memory Byte) (k : Nat) (v : Byte),
      pixelAt (surfWrite g (x + k) y v m) (pixelAddr g (x + k) y) = v := fun m k v => Memory.read_write_same _ m _ v
  have hother : ∀ (m : Memory Byte) {k l : Nat} (v : Byte), k ≠ l →
      pixelAt (surfWrite g (x + l) y v m) (pixelAddr g (x + k) y) = pixelAt m (pixelAddr g (x + k) y) :=
    fun m _ _ v h => pixelAt_write_other (hne h) v
  change pixelAt (putPixels g x y row surf) (pixelAddr g (x + col) y) = _
  unfold putPixels
  obtain rfl | rfl | rfl | rfl : col = 3 ∨ col = 2 ∨ col = 1 ∨ col = 0 := by omega
  · exact hsame _ 3 _
  · rw [hother _ _ (by decide)]; exact hsame _ 2 _
  · rw [hother _ _ (by decide), hother _ _ (by decide)]; exact hsame _ 1 _
  · rw [hother _ _ (by decide), hother _ _ (by decide), hother _ _ (by decide)]; exact hsame _ 0 _

/-- PutRow gives each of its pixels the value of its column, in all D surface rows. -/
theorem putRow_on (hblk : blk < g.nb) {r col a : Nat} (row : Row) (surf : Memory Byte) (h : onPixel g blk r col a) :
    pixelAt (putRow g blk r row surf) a = row.pixel col := by
  obtain ⟨hr, hcol, j, hj, rfl⟩ := h
  have hrows : ∀ n, j < n →
      pixelAt (putRows g (4 * (blk % g.bw)) (rowTop g blk r) row n surf)
        ((rowTop g blk r + j) * g.w.toNat + (4 * (blk % g.bw) + col)) = row.pixel col := by
    intro n
    induction n with
    | zero => intro hn; cases hn
    | succ n ih =>
      intro hn
      rw [putRows_succ]
      by_cases hjn : j = n
      · subst hjn
        exact putPixels_pixel _ _ _ _ _ hcol
      · have hne : ∀ k, k < 4 → (rowTop g blk r + j) * g.w.toNat + (4 * (blk % g.bw) + col) ≠
            pixelAddr g (4 * (blk % g.bw) + k) (rowTop g blk r + n) := fun k hk e => by
          have := (address_unique (block_column_lt hblk hcol) (block_column_lt hblk hk) e).1
          omega
        unfold putPixels surfWrite
        rw [pixelAt_write_other (hne 3 (by decide)), pixelAt_write_other (hne 2 (by decide)),
          pixelAt_write_other (hne 1 (by decide)), pixelAt_write_other (hne 0 (by decide))]
        exact ih (by omega)
  rw [putRow_eq]
  exact hrows g.d hj

/-! ### A block -/

/-- Every pixel of a block is that of its row and column. -/
theorem putBlock_on (hblk : blk < g.nb) {r col a : Nat} (rows : Nat → Row) (surf : Memory Byte)
    (h : onPixel g blk r col a) : pixelAt (putBlock g blk rows surf) a = (rows r).pixel col := by
  have hoff : ∀ r', r' ≠ r → ∀ col', ¬ onPixel g blk r' col' a := fun r' hne col' h' =>
    hne (onPixel_unique hblk h' h).1
  obtain ⟨hr, _⟩ := id h
  unfold putBlock
  obtain rfl | rfl | rfl | rfl : r = 3 ∨ r = 2 ∨ r = 1 ∨ r = 0 := by omega
  · exact putRow_on hblk _ _ h
  · rw [putRow_off (by decide) _ _ (hoff 3 (by decide))]
    exact putRow_on hblk _ _ h
  · rw [putRow_off (by decide) _ _ (hoff 3 (by decide)), putRow_off (by decide) _ _ (hoff 2 (by decide))]
    exact putRow_on hblk _ _ h
  · rw [putRow_off (by decide) _ _ (hoff 3 (by decide)), putRow_off (by decide) _ _ (hoff 2 (by decide)),
      putRow_off (by decide) _ _ (hoff 1 (by decide))]
    exact putRow_on hblk _ _ h

/-- A block changes its own pixels only. -/
theorem putBlock_off (rows : Nat → Row) (surf : Memory Byte) {a : Nat} (h : ¬ onBlock g blk a) :
    pixelAt (putBlock g blk rows surf) a = pixelAt surf a := by
  refine putBlock_induct (P := fun m => pixelAt m a = pixelAt surf a) rows (fun m b v hon hm => ?_) rfl
  have hne : a ≠ b := fun hab => h (hab ▸ hon)
  rw [pixelAt_write_other hne, hm]

end Block

/-- Mask bit `4r + col` chooses the colour of row `r`, column `col` (R105). -/
theorem monoRow_pixel (c m : Half) (r : Nat) {col : Nat} (hcol : col < 4) :
    (monoRow c m r).pixel col = if m.getLsbD (4 * r + col) then highByte c else lowByte c := by
  obtain rfl | rfl | rfl | rfl : col = 0 ∨ col = 1 ∨ col = 2 ∨ col = 3 := by omega
  all_goals rfl

end Sys2Proof.Machine

namespace Sys2Proof.Proofs

open Sys2Proof.Machine

/-- Settles O37: the block is four rows, each pixel of which its mask bit chooses. -/
theorem monoBlockPixels : Obligations.MonoBlockPixels := by
  intro g f hblk c m f'
  have hsurf : f'.surf = putBlock g f.blk (monoRow c.1 m.1) f.surf := rfl
  refine ⟨fun r col a h => ?on, fun a h => ?off, rfl, rfl, rfl, rfl⟩
  case on => rw [hsurf, putBlock_on hblk _ _ h]; exact monoRow_pixel _ _ _ h.2.1
  case off => rw [hsurf, putBlock_off _ _ h]

end Sys2Proof.Proofs
end

section
/-! PROOFS. The causes a command can end with (60_exceptions.md R401) and phase admission (30_encoding.md R94): O7. -/

namespace Sys2Proof.Machine

/-! ### What each command raises -/

theorem buildOne_error {g : Cfg} {k : TreeId} {b : Trees × Cursor} {cause : Cause} (h : buildOne g k b = .error cause) :
    cause = .byteTreeCapacity ∨ cause = .wordTreeCapacity := by
  rcases bind_error h with h | ⟨_, _, h⟩
  · exact buildWordTree_error h
  · cases h

theorem bootstrap_error {g : Cfg} {wt : Trees} {blob : List Byte} {cause : Cause}
    (h : bootstrap g wt blob = .error cause) : cause.code.fatal = true := by
  have hone : ∀ {k b c}, buildOne g k b = .error c → c.code.fatal = true := fun h => by
    rcases buildOne_error h with rfl | rfl <;> rfl
  rcases bind_error h with h | ⟨⟨wt', c⟩, _, h⟩
  · rcases bind_error h with h | ⟨_, _, h⟩
    · exact hone h
    rcases bind_error h with h | ⟨_, _, h⟩
    · exact hone h
    rcases bind_error h with h | ⟨_, _, h⟩
    · exact hone h
    · exact hone h
  · dsimp only at h
    split at h <;> cases h
    rfl

theorem decodeFrame_error {g : Cfg} {wt : Trees} {surf : Memory Byte} {vid : List Byte} {cause : Cause}
    (h : decodeFrame g wt surf vid = .error cause) : cause.code.fatal = true := by
  dsimp only [decodeFrame] at h
  split at h <;> cases h
  rfl

theorem PalChunk.byte_error {k : PalChunk} {q : Nat} {cause : Cause} (h : k.byte q = .error cause) :
    cause.code.fatal = true := by
  unfold PalChunk.byte at h
  split at h <;> cases h
  rfl

theorem palSkip_error {n : BitVec 7} {p : PalState} {cause : Cause} (h : palSkip n p = .error cause) :
    cause.code.fatal = true := by
  unfold palSkip at h
  split at h <;> cases h
  rfl

theorem palCopy_error {k : PalChunk} {n : BitVec 6} {p : PalState} {cause : Cause} (h : palCopy k n p = .error cause) :
    cause.code.fatal = true := by
  unfold palCopy at h
  split at h
  · next hbyte => cases h; exact PalChunk.byte_error hbyte
  · split at h
    · cases h; rfl
    · split at h <;> cases h
      rfl

theorem palLiteral_error {k : PalChunk} {r6 : BitVec 6} {p : PalState} {cause : Cause}
    (h : palLiteral k r6 p = .error cause) : cause.code.fatal = true := by
  rcases bind_error h with h | ⟨_, _, h⟩
  · exact PalChunk.byte_error h
  rcases bind_error h with h | ⟨_, _, h⟩
  · exact PalChunk.byte_error h
  · cases h

theorem palRecord_error {k : PalChunk} {p : PalState} {cause : Cause} (h : palRecord k p = .error cause) :
    cause.code.fatal = true := by
  rcases bind_error h with h | ⟨ctl, _, h⟩
  · exact PalChunk.byte_error h
  · dsimp only at h
    split at h
    · exact palSkip_error h
    · exact palCopy_error h
    · exact palLiteral_error h
    · cases h

theorem palLoop_error {k : PalChunk} : ∀ {n : Nat} {p : PalState} {cause : Cause},
    palLoop k n p = .error cause → cause.code.fatal = true := by
  intro n
  induction n with
  | zero => intro p cause h; cases h
  | succ n ih =>
    intro p cause h
    rw [palLoop] at h
    split at h
    · rcases bind_error h with h | ⟨_, _, h⟩
      · exact palRecord_error h
      · exact ih h
    · cases h

theorem palLength_error {chunk : List Byte} {cause : Cause} (h : palLength chunk = .error cause) :
    cause.code.fatal = true := by
  unfold palLength at h
  split at h
  · cases h; rfl
  · split at h <;> cases h
    rfl

theorem unpackPalette_error {pal : Memory Rgb} {chunk : List Byte} {cause : Cause}
    (h : unpackPalette pal chunk = .error cause) : cause.code.fatal = true := by
  rcases bind_error h with h | ⟨_, _, h⟩
  · exact palLength_error h
  rcases bind_error h with h | ⟨_, _, h⟩
  · exact palLoop_error h
  · cases h

theorem buildPlanes_error : ∀ {n : Nat} {c : Cursor} {cause : Cause}, buildPlanes n c = .error cause →
    cause = .byteTreeCapacity := by
  intro n
  induction n with
  | zero => intro c cause h; cases h
  | succ n ih =>
    intro c cause h
    rcases bind_error h with h | ⟨_, _, h⟩
    · exact buildByteTree_error h
    rcases bind_error h with h | ⟨_, _, h⟩
    · exact ih h
    · cases h

theorem audioBody_error {info : Word} {unpacked : Nat} {f : AudioFormat} {a : AudioState} {cause : Cause}
    (h : audioBody info unpacked f a = .error cause) : cause.code.fatal = true := by
  unfold audioBody at h
  split at h
  · cases h; rfl
  · split at h
    · cases h; rfl
    · rcases bind_error h with h | ⟨_, _, h⟩
      · rw [buildPlanes_error h]; rfl
      · dsimp only at h
        split at h <;> cases h
        rfl

theorem decodeChunk_error {info : Word} {unpacked : Nat} {chunk : List Byte} {cause : Cause}
    (h : decodeChunk info unpacked chunk = .error cause) : cause.code.fatal = true := by
  dsimp only [decodeChunk] at h
  split at h
  · rcases bind_error h with h | ⟨_, _, h⟩
    · exact audioBody_error h
    · cases h
  · cases h

/-- The dispatch raises one of four causes, none of them fatal. -/
theorem audioDispatch_error {g : Cfg} {track : BitVec 3} {cause : Cause} (h : audioDispatch g track = .error cause) :
    cause = .badTrack ∨ cause = .unsupportedRdft ∨ cause = .unsupportedDct ∨ cause = .audioNotCompressed := by
  unfold audioDispatch at h
  split at h
  · cases h; simp
  · split_ifs at h <;> cases h <;> simp

/-! ### Phase admission -/

theorem ne_wrongPhase_of_fatal {cause : Cause} (h : cause.code.fatal = true) : cause ≠ .wrongPhase := by
  rintro rfl
  cases h

/-- A computation that raises no WRONG_PHASE ends without one, where its result does. -/
theorem State.orRaise_ne_wrongPhase {α : Type} {s : State} {r : Except Cause α} {k : α → State}
    (hok : ∀ v, (k v).status.cause ≠ .wrongPhase) (herror : ∀ c, r = .error c → c ≠ .wrongPhase) :
    (s.orRaise r k).status.cause ≠ .wrongPhase := by
  rcases s.orRaise_cases r k with ⟨v, _, h⟩ | ⟨c, hr, h⟩
  · rw [h]; exact hok v
  · rw [h, State.raise_status]; exact herror c hr

theorem State.finish_ne_wrongPhase (s : State) : s.finish.status.cause ≠ .wrongPhase := by
  rw [State.finish_status]
  exact nofun

theorem onlyUnconfigured_holds (p : Phase) : onlyUnconfigured.holds p = (p == .unconfigured) := by cases p <;> rfl

theorem onlyConfigured_holds (p : Phase) : onlyConfigured.holds p = (p == .configured) := by cases p <;> rfl

theorem onlyReady_holds (p : Phase) : onlyReady.holds p = (p == .ready) := by cases p <;> rfl

theorem onceConfigured_holds (p : Phase) : onceConfigured.holds p = p.isOpen := by cases p <;> rfl

/-- Each of the seven commands runs where its row of the table admits it, and what runs does not end with WRONG_PHASE. -/
theorem exec_admitted {i : Instr} {a : Admission} (s : State) (h : admission i = some a) :
    ∃ run : State, exec i s = .next (s.whenAdmitted (a.holds s.phase) run) ∧ run.status.cause ≠ .wrongPhase := by
  cases i
  case configure ops =>
    cases h
    rw [onlyUnconfigured_holds]
    refine ⟨_, rfl, ?_⟩
    cases subVerOf ops.sig with
    | none => rw [State.raise_status]; exact nofun
    | some sv => exact State.finish_ne_wrongPhase _
  case buildTrees blob =>
    cases h
    rw [onlyConfigured_holds]
    exact ⟨_, rfl, State.orRaise_ne_wrongPhase (fun _ => State.finish_ne_wrongPhase _)
      fun _ h => ne_wrongPhase_of_fatal (bootstrap_error h)⟩
  case decodeFrame vid =>
    cases h
    rw [onlyReady_holds]
    exact ⟨_, rfl, State.orRaise_ne_wrongPhase (fun _ => State.finish_ne_wrongPhase _)
      fun _ h => ne_wrongPhase_of_fatal (decodeFrame_error h)⟩
  case unpackPalette chunk =>
    cases h
    rw [onceConfigured_holds]
    exact ⟨_, rfl, State.orRaise_ne_wrongPhase (fun _ => State.finish_ne_wrongPhase _)
      fun _ h => ne_wrongPhase_of_fatal (unpackPalette_error h)⟩
  case decodeAudio track chunk unpacked =>
    cases h
    rw [onceConfigured_holds]
    refine ⟨_, rfl, State.orRaise_ne_wrongPhase (fun info => State.orRaise_ne_wrongPhase (fun r => ?_)
      fun _ h => ne_wrongPhase_of_fatal (decodeChunk_error h)) fun _ h => ?_⟩
    · cases r with
      | none => exact State.finish_ne_wrongPhase _
      | some samples => exact State.finish_ne_wrongPhase _
    · rcases audioDispatch_error h with rfl | rfl | rfl | rfl <;> exact nofun
  case getDirtyRect =>
    cases h
    rw [onceConfigured_holds]
    refine ⟨_, rfl, ?_⟩
    unfold State.nextRect
    split <;> exact State.finish_ne_wrongPhase _
  case ackPalette =>
    cases h
    rw [onceConfigured_holds]
    exact ⟨_, rfl, State.finish_ne_wrongPhase _⟩
  all_goals cases h

end Sys2Proof.Machine

namespace Sys2Proof.Proofs

open Sys2Proof.Machine

/-- Settles O7: by whether the table admits the command in the phase. -/
theorem phaseAdmission : Obligations.PhaseAdmission := by
  intro i a s ha
  obtain ⟨run, hrun, hcause⟩ := exec_admitted s ha
  refine ⟨fun hrefused => ?refused, fun hadmitted t ht => ?admitted⟩
  case refused =>
    rw [hrun, hrefused]
    rfl
  case admitted =>
    rw [hrun, hadmitted, State.whenAdmitted_true] at ht
    cases ht
    exact hcause

end Sys2Proof.Proofs
end

section
/-! PROOFS. What the commands keep of trees, stores and DIRTY: sound word trees under MRU updates (42_word_tree.md R205
to R209), stores written inside their range, the frame decoder's state (43_frame_decoder.md), the palette
(45_palette.md), and the dirty list before the scanner (44_dirty_rect.md). -/

namespace Sys2Proof.Machine

/-! ### Sound trees -/

/-- A leaf's cell overwritten: the same shape with one label changed. -/
theorem CodeTree.exists_set {w : Nat} (v : BitVec w) {t : CodeTree (BitVec w)} : ∀ {p : Nat} {u : BitVec w},
    t.cells[p]? = some (.leaf u) →
    ∃ t' : CodeTree (BitVec w), t'.cells = t.cells.set p (.leaf v) ∧ t'.count = t.count ∧
      ∀ k i d, t'.entry k i d = t.entry k i d := by
  induction t with
  | leaf x =>
    intro p u h
    have hp : p < [Node.leaf x].length := (List.getElem?_eq_some_iff.1 h).1
    obtain rfl : p = 0 := by simpa using hp
    exact ⟨.leaf v, rfl, rfl, fun _ _ _ => rfl⟩
  | fork l r ihl ihr =>
    intro p u h
    cases p with
    | zero => cases h
    | succ q =>
      rw [cells, List.getElem?_cons_succ] at h
      by_cases hq : q < l.cells.length
      · rw [List.getElem?_append_left hq] at h
        obtain ⟨l', hcells, hcount, hentry⟩ := ihl h
        exact ⟨.fork l' r, by simp [cells, hcount, hcells, List.set_append_left _ _ hq], by simp [count, hcount],
          fun k i d => by simp [entry, hcount, hentry]⟩
      · have hq : l.cells.length ≤ q := Nat.not_lt.1 hq
        rw [List.getElem?_append_right hq] at h
        obtain ⟨r', hcells, hcount, hentry⟩ := ihr h
        exact ⟨.fork l r', by simp [cells, hcells, List.set_append_right _ _ hq], by simp [count, hcount],
          fun k i d => by simp [entry, hentry]⟩

/-- A value written to a slot's cell keeps a tree sound: the cell is a leaf of the code tree or one after it. -/
theorem soundTree_setSlot {cap : Nat} {w : WordTree} (h : soundTree cap w) (j : Fin 3) (v : Half) :
    soundTree cap { w with nodes := w.nodes.set (w.slot.get j) (.leaf v) } := by
  rcases h with ⟨hempty, hnil⟩ | ⟨hempty, hlen, t, extra, hextra, hnodes, hpfx, hslots⟩
  · exact .inl ⟨hempty, by simp [hnil]⟩
  · obtain ⟨u, hu⟩ := hslots j
    have hslots' : ∀ l : Fin 3, ∃ x, (w.nodes.set (w.slot.get j) (.leaf v))[w.slot.get l]? = some (.leaf x) := by
      intro l
      by_cases hl : w.slot.get j = w.slot.get l
      · exact ⟨v, by rw [← hl]; exact List.getElem?_set_self (List.getElem?_eq_some_iff.1 hu).1⟩
      · obtain ⟨x, hx⟩ := hslots l
        exact ⟨x, by rw [List.getElem?_set_ne hl, hx]⟩
    refine .inr ⟨hempty, by simpa using hlen, ?_⟩
    rw [hnodes] at hu
    by_cases hin : w.slot.get j < t.cells.length
    · rw [List.getElem?_append_left hin] at hu
      obtain ⟨t', hcells, _, hentry⟩ := CodeTree.exists_set v hu
      exact ⟨t', extra, hextra, by simp [hnodes, hcells, List.set_append_left _ _ hin],
        by simp [hpfx, CodeTree.table, hentry], hslots'⟩
    · exact ⟨t, extra.set (w.slot.get j - t.cells.length) v, by simpa using hextra,
        by rw [hnodes, List.set_append_right _ _ (Nat.not_lt.1 hin), List.map_set], hpfx, hslots'⟩

theorem soundTree_mruUpdate {cap : Nat} {w : WordTree} (h : soundTree cap w) (v : Half) :
    soundTree cap { w with nodes := mruUpdate w.slot v w.nodes } := by
  unfold mruUpdate
  split
  · exact h
  · exact soundTree_setSlot (soundTree_setSlot (soundTree_setSlot h 2 _) 1 _) 0 _

theorem soundTree_wordGetCode {cap : Nat} {w : WordTree} (h : soundTree cap w) (c : Cursor) :
    soundTree cap (wordGetCode w c).2.1 ∧ (wordGetCode w c).2.1.built = w.built := by
  unfold wordGetCode
  split
  · exact ⟨h, rfl⟩
  · exact ⟨soundTree_mruUpdate h _, rfl⟩

theorem soundTree_wordReset {cap : Nat} {w : WordTree} (h : soundTree cap w) :
    soundTree cap (wordReset w) ∧ (wordReset w).built = w.built := by
  unfold wordReset
  split
  · exact ⟨h, rfl⟩
  · exact ⟨soundTree_setSlot (soundTree_setSlot (soundTree_setSlot h 0 0) 1 0) 2 0, rfl⟩

/-- The trees of a blob that was read are sound, each in its capacity. -/
theorem bootstrap_ok {g : Cfg} {wt wt' : Trees} {blob : List Byte} (h : bootstrap g wt blob = .ok wt') :
    ∀ k, soundTree (g.cap k) (wt'.get k) ∧ (wt'.get k).built = true := by
  have hone : ∀ {k b b'}, buildOne g k b = .ok b' →
      soundTree (g.cap k) (b'.1.get k) ∧ ∀ l, l ≠ k → b'.1.get l = b.1.get l := by
    intro k b b' hb
    obtain ⟨r, hr, hb⟩ := bind_ok hb
    cases hb
    exact ⟨by simpa using (buildWordTree_ok hr).1, fun l hl => Trees.get_set_other _ _ hl⟩
  obtain ⟨⟨built, c⟩, hfour, h⟩ := bind_ok h
  obtain ⟨b0, h0, hfour⟩ := bind_ok hfour
  obtain ⟨b1, h1, hfour⟩ := bind_ok hfour
  obtain ⟨b2, h2, h3⟩ := bind_ok hfour
  dsimp only at h
  split at h
  · cases h
  · cases h
    obtain ⟨s0, _⟩ := hone h0
    obtain ⟨s1, k1⟩ := hone h1
    obtain ⟨s2, k2⟩ := hone h2
    obtain ⟨s3, k3⟩ := hone h3
    have hsound : ∀ k, soundTree (g.cap k) (built.get k) := by
      intro k
      cases k
      · have hkept : built.get .mmap = b0.1.get .mmap :=
          (k3 .mmap (by decide)).trans ((k2 .mmap (by decide)).trans (k1 .mmap (by decide)))
        exact hkept ▸ s0
      · have hkept : built.get .mclr = b1.1.get .mclr := (k3 .mclr (by decide)).trans (k2 .mclr (by decide))
        exact hkept ▸ s1
      · have hkept : built.get .full = b2.1.get .full := k3 .full (by decide)
        exact hkept ▸ s2
      · exact s3
    intro k
    rw [markBuilt, Trees.get_map]
    exact ⟨hsound k, rfl⟩

/-! ### Stores -/

/-- A store in canonical form over its initial content, written inside its range only. -/
structure StoreInv {α : Type} (inside : Nat → Prop) (m : Memory α) : Prop where
  form : m.wf
  base : m.base = .init
  range : ∀ p ∈ m.cells, inside p.1

theorem StoreInv.write {α : Type} {inside : Nat → Prop} {m : Memory α} (h : StoreInv inside m) {a : Nat}
    (ha : inside a) (v : α) : StoreInv inside (m.write a v) where
  form := Memory.write_wf h.form a v
  base := h.base
  range := fun p hp => by
    rcases Memory.mem_write hp with hp | hp
    · rw [hp]; exact ha
    · exact h.range p hp

/-- The pixels of a block of the grid lie in the grid. -/
theorem onGrid_of_onBlock {g : Cfg} {blk a : Nat} (hblk : blk < g.nb) (h : onBlock g blk a) : onGrid g a := by
  obtain ⟨r, col, hr, hcol, j, hj, rfl⟩ := h
  have hbw : 0 < g.bw := Nat.pos_of_ne_zero fun h => by simp [Cfg.nb, h] at hblk
  have hx : blk % g.bw < g.bw := Nat.mod_lt _ hbw
  have hy : blk / g.bw < g.bh := Nat.div_lt_of_lt_mul hblk
  refine ⟨_, _, by omega, ?_, rfl⟩
  calc blk / g.bw * 4 * g.d + r * g.d + j < blk / g.bw * 4 * g.d + r * g.d + g.d := by omega
    _ = (blk / g.bw * 4 + r + 1) * g.d := by ring
    _ ≤ 4 * g.bh * g.d := Nat.mul_le_mul_right _ (by omega)

/-! ### The frame decoder -/

/-- What the frame decoder keeps between two blocks. -/
structure FrameInv (g : Cfg) (f : FrameState) : Prop where
  sound : ∀ k, soundTree (g.cap k) (f.wt.get k)
  built : ∀ k, (f.wt.get k).built = true
  surf : StoreInv (onGrid g) f.surf
  dirtyOrder : f.dirty.Pairwise (· < ·)
  dirtyRange : ∀ b ∈ f.dirty, b < g.nb

section Frame

variable {g : Cfg} {f : FrameState}

theorem FrameInv.getCode (h : FrameInv g f) (k : TreeId) : FrameInv g (f.getCode k).2 where
  sound := fun l => by
    by_cases hl : l = k
    · subst hl; simpa [FrameState.getCode] using (soundTree_wordGetCode (h.sound l) f.cur).1
    · simpa [FrameState.getCode, hl] using h.sound l
  built := fun l => by
    by_cases hl : l = k
    · subst hl; simpa [FrameState.getCode] using (soundTree_wordGetCode (h.sound l) f.cur).2.trans (h.built l)
    · simpa [FrameState.getCode, hl] using h.built l
  surf := h.surf
  dirtyOrder := h.dirtyOrder
  dirtyRange := h.dirtyRange

/-- PutRow of a block of the grid. -/
theorem FrameInv.putRow (h : FrameInv g f) (hblk : f.blk < g.nb) {r : Nat} (hr : r < 4) (row : Row) :
    FrameInv g { f with surf := putRow g f.blk r row f.surf } :=
  { h with
    surf := putRow_induct hr row (fun _ _ v hon hm => hm.write (onGrid_of_onBlock hblk ⟨r, hon⟩) v) h.surf }

theorem FrameInv.putBlock (h : FrameInv g f) (hblk : f.blk < g.nb) (rows : Nat → Row) :
    FrameInv g { f with surf := putBlock g f.blk rows f.surf } :=
  { h with surf := putBlock_induct rows (fun _ _ v hon hm => hm.write (onGrid_of_onBlock hblk hon) v) h.surf }

/-- A block keeps the frame decoder's state, and stays where it is. -/
def KeepsFrame (g : Cfg) (block : FrameState → FrameState) : Prop :=
  ∀ f, f.blk < g.nb → FrameInv g f → FrameInv g (block f) ∧ (block f).blk = f.blk

theorem KeepsFrame.comp {first second : FrameState → FrameState} (h1 : KeepsFrame g first)
    (h2 : KeepsFrame g second) : KeepsFrame g fun f => second (first f) := fun f hblk hf => by
  obtain ⟨hf1, hblk1⟩ := h1 f hblk hf
  obtain ⟨hf2, hblk2⟩ := h2 (first f) (hblk1 ▸ hblk) hf1
  exact ⟨hf2, hblk2.trans hblk1⟩

theorem keepsFrame_blockMono : KeepsFrame g (blockMono g) := fun _ hblk hf =>
  ⟨((hf.getCode .mclr).getCode .mmap).putBlock hblk _, rfl⟩

theorem keepsFrame_blockFill (col : Byte) : KeepsFrame g (blockFill g col) := fun _ hblk hf =>
  ⟨hf.putBlock hblk _, rfl⟩

theorem keepsFrame_fullRow0 {r : Nat} (hr : r < 4) : KeepsFrame g fun f => fullRow0 g f r := fun _ hblk hf =>
  ⟨((hf.getCode .full).getCode .full).putRow hblk hr _, rfl⟩

theorem keepsFrame_fullHalf1 {r : Nat} (hr : r + 1 < 4) : KeepsFrame g fun f => fullHalf1 g f r := fun _ hblk hf =>
  ⟨((hf.getCode .full).putRow hblk (Nat.lt_of_succ_lt hr) _).putRow hblk hr _, rfl⟩

theorem keepsFrame_fullHalf2 {r : Nat} (hr : r + 1 < 4) : KeepsFrame g fun f => fullHalf2 g f r := fun _ hblk hf =>
  ⟨(((hf.getCode .full).getCode .full).putRow hblk (Nat.lt_of_succ_lt hr) _).putRow hblk hr _, rfl⟩

theorem keepsFrame_blockFull (mode : Nat) : KeepsFrame g (blockFull g mode) := by
  have h0 : KeepsFrame g (blockFull0 g) :=
    (((keepsFrame_fullRow0 (by decide)).comp (keepsFrame_fullRow0 (by decide))).comp
      (keepsFrame_fullRow0 (by decide))).comp (keepsFrame_fullRow0 (by decide))
  have h1 : KeepsFrame g (blockFull1 g) := (keepsFrame_fullHalf1 (by decide)).comp (keepsFrame_fullHalf1 (by decide))
  have h2 : KeepsFrame g (blockFull2 g) := (keepsFrame_fullHalf2 (by decide)).comp (keepsFrame_fullHalf2 (by decide))
  intro f hblk hf
  unfold blockFull
  split_ifs
  · exact h1 f hblk hf
  · exact h2 f hblk hf
  · exact h0 f hblk hf

/-- One step of a run: the frame decoder's state is kept and blk advances by one. -/
def Advances (g : Cfg) (block : FrameState → FrameState) : Prop :=
  ∀ f, f.blk < g.nb → FrameInv g f → FrameInv g (block f) ∧ (block f).blk = f.blk + 1

theorem KeepsFrame.paint {block : FrameState → FrameState} (h : KeepsFrame g block) : Advances g (paint block) :=
  fun f hblk hf => by
    obtain ⟨hf', hblk'⟩ := h f hblk hf
    refine ⟨{ hf' with
      dirtyOrder := markDirty_rising _ hf'.dirtyOrder
      dirtyRange := fun b hb => ?_ }, congrArg (· + 1) hblk'⟩
    rcases mem_markDirty.1 hb with rfl | hb
    · rw [hblk']; exact hblk
    · exact hf'.dirtyRange b hb

theorem advances_skipBlock : Advances g skipBlock := fun _ _ hf => ⟨{ hf with }, rfl⟩

theorem Advances.repeat {block : FrameState → FrameState} (h : Advances g block) : ∀ {n : Nat} {f : FrameState},
    f.blk + n ≤ g.nb → FrameInv g f → FrameInv g (repeatBlock block n f) := by
  intro n
  induction n with
  | zero => intro f _ hf; exact hf
  | succ n ih =>
    intro f hn hf
    obtain ⟨hf', hblk'⟩ := h f (by omega) hf
    exact ih (by omega) hf'

/-- A run never leaves the grid (R244). -/
theorem clampedRun_le (hblk : f.blk < g.nb) (runidx : BitVec 6) : f.blk + clampedRun g runidx f.blk ≤ g.nb := by
  have : clampedRun g runidx f.blk ≤ g.nb - f.blk := Nat.min_le_right _ _
  omega

theorem FrameInv.blockRun (h : FrameInv g f) (hblk : f.blk < g.nb) : FrameInv g (blockRun g f) := by
  have hcode := h.getCode .typ
  have hrun := fun runidx => clampedRun_le (f := (f.getCode .typ).2) hblk runidx
  unfold Machine.blockRun
  dsimp only
  split
  · exact keepsFrame_blockMono.paint.repeat (hrun _) hcode
  · exact (keepsFrame_blockFull _).paint.repeat (f := { (f.getCode .typ).2 with cur := _ }) (hrun _) { hcode with }
  · exact advances_skipBlock.repeat (hrun _) hcode
  · exact (keepsFrame_blockFill _).paint.repeat (hrun _) hcode
  · exact hcode

theorem FrameInv.frameLoop : ∀ {n : Nat} {f : FrameState}, FrameInv g f → FrameInv g (frameLoop g n f) := by
  intro n
  induction n with
  | zero => intro f h; exact h
  | succ n ih =>
    intro f h
    unfold Machine.frameLoop
    split
    · next hblk => exact ih (h.blockRun hblk)
    · exact h

theorem decodeFrame_ok {wt : Trees} {surf : Memory Byte} {vid : List Byte} {f : FrameState}
    (hsound : ∀ k, soundTree (g.cap k) (wt.get k)) (hbuilt : ∀ k, (wt.get k).built = true)
    (hsurf : StoreInv (onGrid g) surf) (h : decodeFrame g wt surf vid = .ok f) : FrameInv g f := by
  have hstart : FrameInv g (frameStart wt surf vid) :=
    { sound := fun k => by rw [frameStart, Trees.get_map]; exact (soundTree_wordReset (hsound k)).1
      built := fun k => by
        rw [frameStart, Trees.get_map]; exact (soundTree_wordReset (hsound k)).2.trans (hbuilt k)
      surf := hsurf
      dirtyOrder := List.Pairwise.nil
      dirtyRange := nofun }
  dsimp only [decodeFrame] at h
  split at h
  · cases h
  · cases h
    exact hstart.frameLoop

end Frame

/-! ### The palette -/

/-- A store of the 256 palette entries. -/
abbrev PalInv (pal : Memory Rgb) : Prop := StoreInv (· < 256) pal

theorem PalInv.copyEntries {pal : Memory Rgb} (h : PalInv pal) (old : Memory Rgb) (src e : Nat) : ∀ {n : Nat},
    e + n ≤ 256 → PalInv (copyEntries old src e n pal) := by
  intro n
  induction n with
  | zero => intro _; exact h
  | succ n ih => intro hn; exact (ih (by omega)).write (show e + n < 256 by omega) _

theorem palSkip_pal {n : BitVec 7} {p q : PalState} (h : palSkip n p = .ok q) : q.pal = p.pal := by
  unfold palSkip at h
  split at h <;> cases h
  rfl

theorem palCopy_ok {k : PalChunk} {n : BitVec 6} {p q : PalState} (hp : PalInv p.pal) (h : palCopy k n p = .ok q) :
    PalInv q.pal := by
  unfold palCopy at h
  split at h
  · cases h
  · split_ifs at h with hover
    cases h
    exact hp.copyEntries _ _ _ (Nat.not_lt.1 hover)

theorem palLiteral_ok {k : PalChunk} {r6 : BitVec 6} {p q : PalState} (hp : PalInv p.pal) (hentry : p.entry < 256)
    (h : palLiteral k r6 p = .ok q) : PalInv q.pal := by
  obtain ⟨gb, _, h⟩ := bind_ok h
  obtain ⟨bb, _, h⟩ := bind_ok h
  cases h
  exact hp.write hentry _

theorem palRecord_ok {k : PalChunk} {p q : PalState} (hp : PalInv p.pal) (hentry : p.entry < 256)
    (h : palRecord k p = .ok q) : PalInv q.pal := by
  obtain ⟨ctl, _, h⟩ := bind_ok h
  dsimp only at h
  split at h
  · rw [palSkip_pal h]; exact hp
  · exact palCopy_ok (p := { p with pos := p.pos + 1 }) hp h
  · exact palLiteral_ok (p := { p with pos := p.pos + 1 }) hp hentry h
  · cases h; exact hp

theorem palLoop_ok {k : PalChunk} : ∀ {n : Nat} {p q : PalState}, PalInv p.pal → palLoop k n p = .ok q →
    PalInv q.pal := by
  intro n
  induction n with
  | zero => intro p q hp h; cases h; exact hp
  | succ n ih =>
    intro p q hp h
    rw [palLoop] at h
    split at h
    · next hentry =>
      obtain ⟨r, hr, h⟩ := bind_ok h
      exact ih (palRecord_ok hp hentry hr) h
    · cases h; exact hp

/-- CONSUMED is 4·B[0] (R318). -/
theorem palLength_ok {chunk : List Byte} {len : Nat} (h : palLength chunk = .ok len) : len % 4 = 0 ∧ len ≤ 1020 := by
  unfold palLength at h
  split at h
  · cases h
  · next b rest =>
    have hb := b.isLt
    split at h <;> cases h
    omega

theorem unpackPalette_ok {pal : Memory Rgb} {chunk : List Byte} {r : Memory Rgb × Nat} (hp : PalInv pal)
    (h : unpackPalette pal chunk = .ok r) : PalInv r.1 ∧ r.2 % 4 = 0 ∧ r.2 ≤ 1020 := by
  obtain ⟨len, hlen, h⟩ := bind_ok h
  obtain ⟨p, hloop, h⟩ := bind_ok h
  cases h
  exact ⟨palLoop_ok hp hloop, palLength_ok hlen⟩

/-! ### The first dirty block -/

theorem firstDirty_none {g : Cfg} {dirty : List Nat} {scan : Nat} (h : firstDirty g dirty scan = none) :
    ∀ b ∈ dirty, scan ≤ b → ¬ b < g.nb := by
  intro b hb hscan hlt
  have hnil : dirty.filter (fun b => decide (scan ≤ b) && decide (b < g.nb)) = [] := List.min?_eq_none_iff.1 h
  have hmem : b ∈ dirty.filter fun b => decide (scan ≤ b) && decide (b < g.nb) :=
    List.mem_filter.2 ⟨hb, by simp [hscan, hlt]⟩
  rw [hnil] at hmem
  cases hmem

theorem firstDirty_some {g : Cfg} {dirty : List Nat} {scan k : Nat} (h : firstDirty g dirty scan = some k) :
    k < g.nb ∧ ∀ b ∈ dirty, scan ≤ b → b < g.nb → k ≤ b := by
  obtain ⟨hmem, hleast⟩ := List.min?_eq_some_iff.1 h
  obtain ⟨_, hk⟩ := List.mem_filter.1 hmem
  simp only [Bool.and_eq_true, decide_eq_true_eq] at hk
  exact ⟨hk.2, fun b hb hscan hlt => hleast b (List.mem_filter.2 ⟨hb, by simp [hscan, hlt]⟩)⟩

end Sys2Proof.Machine
end

section
/-! PROOFS. Every step keeps the invariant (Safety.lean): the ends of a command, each host command, and the step at the
port: O12. -/

namespace Sys2Proof.Machine

/-! ### The ends of a command -/

section Ends

variable {s : State}

theorem State.Inv.report (h : s.Inv) (cause : Cause) : (s.report cause).Inv :=
  { h with classed := rfl }

/-- A fatal error leaves FAILED, where nothing is said of the contents. -/
theorem State.Inv.failWith (h : s.Inv) (n : Nat) : (s.failWith n).Inv where
  atPort := h.atPort
  noWork := h.noWork
  classed := h.classed
  surfForm := Memory.blank_wf _
  palForm := Memory.blank_wf _
  bases := fun hp => absurd rfl hp
  built := fun hp => absurd rfl hp
  sound := nofun
  surfGrid := fun hp => absurd rfl hp
  palRange := fun hp => absurd rfl hp
  dirtyOrder := fun hp => absurd rfl hp
  dirtyRange := fun hp => absurd rfl hp
  scanRange := fun hp => absurd rfl hp
  clean := by rintro (hp | hp) <;> cases hp
  consumed := h.consumed

theorem State.Inv.raise (h : s.Inv) (cause : Cause) : (s.raise cause).Inv := by
  have hreport : State.Inv { s.report cause with work := Work.idle } := { h.report cause with noWork := rfl }
  unfold State.raise
  split
  · exact hreport.failWith _
  · exact h.report cause

theorem State.Inv.finish (h : s.Inv) : s.finish.Inv :=
  { h with classed := rfl, noWork := rfl }

/-- A computation keeps the invariant where its result does. -/
theorem State.Inv.orRaise {α : Type} {r : Except Cause α} {k : α → State} (h : s.Inv)
    (hok : ∀ v, r = .ok v → (k v).Inv) : (s.orRaise r k).Inv := by
  rcases s.orRaise_cases r k with ⟨v, hr, hv⟩ | ⟨c, _, hc⟩
  · rw [hv]; exact hok v hr
  · rw [hc]; exact h.raise c

theorem State.Inv.whenAdmitted {admitted : Bool} {run : State} (h : s.Inv) (hrun : admitted = true → run.Inv) :
    (s.whenAdmitted admitted run).Inv := by
  cases admitted with
  | false => exact h.report .wrongPhase
  | true => exact hrun rfl

theorem State.Inv.afterReset : s.afterReset.Inv := { reset_inv with }

end Ends

/-! ### The host commands -/

section Commands

variable {s : State}

theorem ready_ne_failed (h : s.phase = .ready) : s.phase ≠ .failed := by rw [h]; exact nofun

theorem configured_ne_failed (h : s.phase = .configured) : s.phase ≠ .failed := by rw [h]; exact nofun

theorem isOpen_ne_failed (h : s.phase.isOpen = true) : s.phase ≠ .failed := fun hf => by rw [hf] at h; cases h

/-- Outside FAILED the surface is written in the grid only. -/
theorem State.Inv.surfInv (h : s.Inv) (hp : s.phase ≠ .failed) : StoreInv (onGrid s.cfg) s.surf :=
  ⟨h.surfForm, (h.bases hp).1, h.surfGrid hp⟩

/-- Outside FAILED the palette is written at its 256 entries only. -/
theorem State.Inv.palInv (h : s.Inv) (hp : s.phase ≠ .failed) : PalInv s.pal :=
  ⟨h.palForm, (h.bases hp).2, h.palRange hp⟩

theorem State.Inv.configure (h : s.Inv) (ops : ConfigOps) (sv : SubVer) : (s.configure ops sv).Inv where
  atPort := h.atPort
  noWork := rfl
  classed := rfl
  surfForm := Memory.blank_wf _
  palForm := Memory.blank_wf _
  bases := fun _ => ⟨rfl, rfl⟩
  built := fun _ k => by rw [State.configure_wt, Trees.get_map]; rfl
  sound := nofun
  surfGrid := fun _ => nofun
  palRange := fun _ => nofun
  dirtyOrder := fun _ => List.Pairwise.nil
  dirtyRange := fun _ => nofun
  scanRange := fun _ => Nat.zero_le _
  clean := fun _ => rfl
  consumed := h.consumed

/-- The four trees of CONFIGURED become those of READY. -/
theorem State.Inv.withTrees (h : s.Inv) (hp : s.phase = .configured) {wt : Trees}
    (hwt : ∀ k, soundTree (s.cfg.cap k) (wt.get k) ∧ (wt.get k).built = true) :
    State.Inv { s with wt := wt, phase := .ready } :=
  have hne := configured_ne_failed hp
  { h with
    bases := fun _ => h.bases hne
    built := fun _ k => (hwt k).2
    sound := fun _ k => (hwt k).1
    surfGrid := fun _ => h.surfGrid hne
    palRange := fun _ => h.palRange hne
    dirtyOrder := fun _ => h.dirtyOrder hne
    dirtyRange := fun _ => h.dirtyRange hne
    scanRange := fun _ => h.scanRange hne
    clean := by rintro (hc | hc) <;> cases hc }

/-- A frame's trees, surface and dirty blocks, with SCAN at 0. -/
theorem State.Inv.withDecodedFrame (h : s.Inv) (hp : s.phase = .ready) {f : FrameState} (hf : FrameInv s.cfg f) :
    State.Inv { s with wt := f.wt, surf := f.surf, dirty := f.dirty, scan := 0 } :=
  { h with
    surfForm := hf.surf.form
    bases := fun hne => ⟨hf.surf.base, (h.bases hne).2⟩
    built := fun _ k => (hf.built k).trans (by rw [hp]; rfl)
    sound := fun _ => hf.sound
    surfGrid := fun _ => hf.surf.range
    dirtyOrder := fun _ => hf.dirtyOrder
    dirtyRange := fun _ b hb => ⟨Nat.zero_le _, hf.dirtyRange b hb⟩
    scanRange := fun _ => Nat.zero_le _
    clean := by
      change s.phase = .unconfigured ∨ s.phase = .configured → _
      rw [hp]
      rintro (hc | hc) <;> cases hc }

theorem State.Inv.withPalette (h : s.Inv) {pal : Memory Rgb} (hpal : PalInv pal) {len : Nat} (hmod : len % 4 = 0)
    (hle : len ≤ 1020) : State.Inv { s with pal := pal, palDirty := true, consumed := BitVec.ofNat 32 len } :=
  { h with
    palForm := hpal.form
    bases := fun hp => ⟨(h.bases hp).1, hpal.base⟩
    palRange := fun _ => hpal.range
    consumed := by
      change (BitVec.ofNat 32 len).toNat % 4 = 0 ∧ (BitVec.ofNat 32 len).toNat ≤ 1020
      rw [BitVec.toNat_ofNat]
      omega }

theorem State.Inv.nextRect (h : s.Inv) (hp : s.phase ≠ .failed) : s.nextRect.Inv := by
  unfold State.nextRect
  split
  · next hnone =>
    have hnil : s.dirty = [] := List.eq_nil_iff_forall_not_mem.2 fun b hb =>
      firstDirty_none hnone b hb (h.dirtyRange hp b hb).1 (h.dirtyRange hp b hb).2
    have hinv : State.Inv { s with scan := 0, rect := none } :=
      { h with
        dirtyRange := fun _ b hb => by rw [hnil] at hb; cases hb
        scanRange := fun _ => Nat.zero_le _ }
    exact hinv.finish
  · next k hk =>
    obtain ⟨hlt, hleast⟩ := firstDirty_some hk
    have hinv : State.Inv { s with
        dirty := clearDirty ((rectFrom s.cfg s.dirty k).contains s.cfg) s.dirty
        scan := k
        rect := some ((rectFrom s.cfg s.dirty k).toRect s.cfg) } :=
      { h with
        dirtyOrder := fun hne => clearDirty_rising _ (h.dirtyOrder hne)
        dirtyRange := fun hne b hb => by
          obtain ⟨hscan, hgrid⟩ := h.dirtyRange hne b (mem_clearDirty.1 hb).1
          exact ⟨hleast b (mem_clearDirty.1 hb).1 hscan hgrid, hgrid⟩
        scanRange := fun _ => Nat.le_of_lt hlt
        clean := fun hc => by rw [h.clean hc]; rfl }
    exact hinv.finish

/-- Every host command keeps the invariant. -/
theorem exec_keeps_inv {i : Instr} {t : State} (h : s.Inv) (hi : isCommand i = true) (ht : exec i s = .next t) :
    t.Inv := by
  cases i
  case configure ops =>
    cases ht
    refine h.whenAdmitted fun _ => ?_
    cases subVerOf ops.sig with
    | none => exact h.raise .badSignature
    | some sv => exact h.configure ops sv
  case buildTrees blob =>
    cases ht
    refine h.whenAdmitted fun hp => h.orRaise fun wt hwt => ?_
    exact (h.withTrees (by simpa using hp) (bootstrap_ok hwt)).finish
  case decodeFrame vid =>
    cases ht
    refine h.whenAdmitted fun hp => h.orRaise fun f hf => ?_
    have hp : s.phase = .ready := by simpa using hp
    have hne := ready_ne_failed hp
    have hbuilt : ∀ k, (s.wt.get k).built = true := fun k => (h.built hne k).trans (by rw [hp]; rfl)
    exact (h.withDecodedFrame hp (decodeFrame_ok (h.sound hp) hbuilt (h.surfInv hne) hf)).finish
  case unpackPalette chunk =>
    cases ht
    refine h.whenAdmitted fun hp => h.orRaise fun r hr => ?_
    obtain ⟨hpal, hmod, hle⟩ := unpackPalette_ok (h.palInv (isOpen_ne_failed hp)) hr
    exact (h.withPalette hpal hmod hle).finish
  case decodeAudio track chunk unpacked =>
    cases ht
    refine h.whenAdmitted fun _ => h.orRaise fun info _ => h.orRaise fun r _ => ?_
    cases r with
    | none => exact State.Inv.finish { h with }
    | some samples => exact State.Inv.finish { h with }
  case getDirtyRect =>
    cases ht
    exact h.whenAdmitted fun hp => h.nextRect (isOpen_ne_failed hp)
  case ackPalette =>
    cases ht
    exact h.whenAdmitted fun _ => State.Inv.finish { h with }
  case reservedCmd cmd =>
    cases ht
    exact h.report .illegalCommand
  all_goals cases hi

end Commands

/-! ### The step -/

/-- A command word decodes to a host command. -/
theorem isCommand_decodeCommand (c : Command) : isCommand (decodeCommand c) = true := by
  cases hres : reservedWord c.cmd with
  | true => rw [decodeCommand_reserved hres]; rfl
  | false =>
    have hopc : ¬ (c.cmd.toNat % 256 = 0 ∨ 8 ≤ c.cmd.toNat % 256 ∨ 256 ≤ c.cmd.toNat) := fun h => by
      rw [← reservedWord_iff, hres] at h
      cases h
    rw [decodeCommand_opc (by omega) (by omega)]
    unfold commandOf
    split <;> rfl

/-- At the port a step finds nothing, or a host command. -/
theorem fetch_cases_of_command {s : State} (hx : s.expect = .command) :
    s.fetch = .idle ∨ ∃ c, s.fetch = .found (.command c) := by
  cases hp : s.port with
  | none => exact .inl (fetch_idle hx hp)
  | some c => exact .inr ⟨c, fetch_command hx hp⟩

end Sys2Proof.Machine

namespace Sys2Proof.Proofs

open Sys2Proof.Machine

/-- Settles O12: by what a step can do; what it fetches is a host command, each of which keeps the invariant. -/
theorem stepKeepsInvariant : Obligations.StepKeepsInvariant := by
  intro s t h hstep
  rcases step_cases hstep with ⟨_, rfl⟩ | ⟨_, _, rfl⟩ | ⟨_, cause, hfetch, _⟩ | ⟨_, e, i, hfetch, hdecode, _, hexec⟩
  · exact State.Inv.afterReset
  · exact h
  · rcases fetch_cases_of_command h.atPort with hport | ⟨c, hport⟩ <;> rw [hport] at hfetch <;> cases hfetch
  · rcases fetch_cases_of_command h.atPort with hport | ⟨c, hport⟩ <;> rw [hport] at hfetch <;> cases hfetch
    cases hdecode
    rw [State.taken_of_command h.atPort] at hexec
    exact exec_keeps_inv h (isCommand_decodeCommand c) hexec

end Sys2Proof.Proofs
end

section
/-! PROOFS. The bit cursor's micro-operations (40_bitcursor.md R141 to R148), each executed on its own: O15 to O18. -/

namespace Sys2Proof.Machine

/-! ### Each micro-operation, through the operation on the cursor -/

theorem exec_readBit (s : State) :
    exec .readBit s =
      .next (s.withResult (BitVec.ofBool (s.work.cur.bit s.work.cur.pos) |>.setWidth 16) (s.work.cur.skip 1)) := rfl

theorem exec_readBits (n : Nat) (s : State) :
    exec (.readBits n) s =
      .next (s.withResult (BitVec.ofNat 16 (s.work.cur.field s.work.cur.pos n)) (s.work.cur.skip n)) := rfl

theorem exec_peek8 (s : State) :
    exec .peek8 s = .next (s.withResult (BitVec.ofNat 16 (s.work.cur.field s.work.cur.pos 8)) s.work.cur) := rfl

theorem exec_skip (n : Nat) (s : State) : exec (.skip n) s = .next (s.withCursor (s.work.cur.skip n)) := rfl

/-! ### The cursor's operations, written out -/

/-- An advance, field by field (R145). -/
theorem Cursor.skip_eq (c : Cursor) (n : Nat) :
    c.skip n =
      { buf := c.buf, pos := c.pos + n, ovr := if 8 * c.buf.length < c.pos + n then true else c.ovr } := by
  by_cases h : 8 * c.buf.length < c.pos + n <;> simp [Cursor.skip, Cursor.overrun, Cursor.len, h]

/-- A bit of the stream, as the number READ_BIT returns (R141, R142). -/
theorem Cursor.bit_result (c : Cursor) (i : Nat) :
    (BitVec.ofBool (c.bit i)).setWidth 16 =
      if i < 8 * c.buf.length then BitVec.ofNat 16 ((c.buf.getD (i / 8) 0).toNat / 2 ^ (i % 8) % 2) else 0 := by
  unfold Cursor.bit Cursor.len
  split
  · rw [BitVec.getLsbD, Nat.testBit_eq_decide_div_mod_eq]
    rcases Nat.mod_two_eq_zero_or_one ((c.buf.getD (i / 8) 0).toNat / 2 ^ (i % 8)) with h | h <;> rw [h] <;> rfl
  · rfl

/-- A field in the result register: the stream's bits, and zeros above them (R143, R144). -/
theorem Cursor.field_getLsbD (c : Cursor) {n : Nat} (hn : n ≤ 16) (p k : Nat) :
    (BitVec.ofNat 16 (c.field p n)).getLsbD k = (decide (k < n) && c.bit (p + k)) := by
  rw [BitVec.getLsbD_ofNat, Cursor.field_testBit]
  by_cases hk : k < n
  · simp [hk, show k < 16 by omega]
  · simp [hk]

/-! ### A run of READ_BITs -/

/-- What `n` successive READ_BITs return: the stream's next bits. -/
def Cursor.nextBits (c : Cursor) : Nat → List Half
  | 0 => []
  | n + 1 => (BitVec.ofBool (c.bit c.pos)).setWidth 16 :: (c.skip 1).nextBits n

theorem Cursor.nextBits_length : ∀ (n : Nat) (c : Cursor), (c.nextBits n).length = n
  | 0, _ => rfl
  | n + 1, c => congrArg (· + 1) (Cursor.nextBits_length n (c.skip 1))

theorem Cursor.nextBits_getElem? : ∀ {n j : Nat} (c : Cursor), j < n →
    (c.nextBits n)[j]? = some ((BitVec.ofBool (c.bit (c.pos + j))).setWidth 16) := by
  intro n
  induction n with
  | zero => intro j c hj; omega
  | succ n ih =>
    intro j c hj
    cases j with
    | zero => rfl
    | succ j =>
      rw [Cursor.nextBits, List.getElem?_cons_succ, ih (c.skip 1) (by omega), Cursor.skip_bit, Cursor.skip_pos,
        show c.pos + 1 + j = c.pos + (j + 1) by omega]

/-- The bits, each weighted by its place, sum up to the field (R147). -/
theorem Cursor.nextBits_sum : ∀ (n : Nat) (c : Cursor),
    (c.nextBits n).foldr (fun b acc => b.toNat + 2 * acc) 0 = c.field c.pos n := by
  intro n
  induction n with
  | zero => intro c; rfl
  | succ n ih =>
    intro c
    have hbit : ((BitVec.ofBool (c.bit c.pos)).setWidth 16).toNat = (c.bit c.pos).toNat := by
      cases c.bit c.pos <;> rfl
    rw [Cursor.nextBits, List.foldr_cons, ih, hbit, Cursor.field, Cursor.skip_field, Cursor.skip_pos]

/-- A run of READ_BITs returns the next bits and leaves the cursor one advance leaves. -/
theorem readBitRun_eq : ∀ {n : Nat} {s : State}, s.work.cur.fair →
    ∃ u, readBitRun n s = some (s.work.cur.nextBits n, u) ∧ u.work.cur = s.work.cur.skip n := by
  intro n
  induction n with
  | zero => intro s hfair; exact ⟨s, rfl, (Cursor.skip_zero hfair).symm⟩
  | succ n ih =>
    intro s _
    obtain ⟨u, hrun, hcur⟩ := ih
      (s := s.withResult (BitVec.ofBool (s.work.cur.bit s.work.cur.pos) |>.setWidth 16) (s.work.cur.skip 1))
      (s.work.cur.skip_fair 1)
    rw [State.withResult_work] at hrun hcur
    refine ⟨u, ?_, ?_⟩
    · simp only [readBitRun, exec_readBit, hrun, Option.map_some, State.withResult_work, Cursor.nextBits]
    · rw [hcur, Cursor.skip_skip, Nat.add_comm]

end Sys2Proof.Machine

namespace Sys2Proof.Proofs

open Sys2Proof.Machine

/-- Settles O15: both are one advance of the cursor, and READ_BIT's result is the bit it stood at. -/
theorem readBitAndSkipEffect : Obligations.ReadBitAndSkipEffect := by
  refine ⟨fun s => ?_, fun n s => ?_⟩
  · rw [exec_readBit, Cursor.bit_result, Cursor.skip_eq]
    rfl
  · rw [exec_skip, Cursor.skip_eq]
    rfl

/-- Settles O16: both results are fields of the stream, of `n` bits and of 8. -/
theorem readBitsAndPeekEffect : Obligations.ReadBitsAndPeekEffect := by
  refine ⟨fun n s hn => ⟨BitVec.ofNat 16 (s.work.cur.field s.work.cur.pos n), ?_, ?_⟩, fun s =>
    ⟨BitVec.ofNat 16 (s.work.cur.field s.work.cur.pos 8), exec_peek8 s, ?_⟩⟩
  · rw [exec_readBits, Cursor.skip_eq]
    rfl
  · exact s.work.cur.field_getLsbD hn _
  · exact s.work.cur.field_getLsbD (by decide) _

/-- Settles O17: the run returns the next bits, whose weighted sum is the field, and READ_BITS returns it whole. -/
theorem readBitsIsARunOfReadBits : Obligations.ReadBitsIsARunOfReadBits := by
  intro n s hn hfair
  obtain ⟨u, hrun, hcur⟩ := readBitRun_eq (n := n) hfair
  refine ⟨_, u, _, hrun, exec_readBits n s, hcur.symm, Cursor.nextBits_length n _, ?_⟩
  have hlt : s.work.cur.field s.work.cur.pos n < 2 ^ 16 :=
    lt_of_lt_of_le (Cursor.field_lt _ _ n) (Nat.pow_le_pow_right (by decide) hn)
  rw [Cursor.nextBits_sum, State.withResult_work, BitVec.toNat_ofNat, Nat.mod_eq_of_lt hlt]

/-- Settles O18: a peek's low bits are the next bits, and a peek leaves the cursor for the skip. -/
theorem peekShowsTheNextBits : Obligations.PeekShowsTheNextBits := by
  intro k s hk hfair
  obtain ⟨u, hrun, hcur⟩ := readBitRun_eq (n := k) hfair
  refine ⟨_, u, _, _, hrun, exec_peek8 s, exec_skip k _, ?cursor, fun j hj => ?bits⟩
  case cursor => rw [State.withCursor_work, State.withResult_work, hcur]
  case bits =>
    rw [State.withResult_work, Cursor.nextBits_getElem? _ hj, Cursor.field_getLsbD _ (by decide),
      decide_eq_true (by omega), Bool.true_and]
    cases s.work.cur.bit (s.work.cur.pos + j) <;> rfl

end Sys2Proof.Proofs
end

section
/-! PROOFS. Where an operation can leave the cursor (40_bitcursor.md R142, R145): as it was, or advanced. It is said of
the readers of the stream, of the frame decoder and of every instruction: O14. -/

namespace Sys2Proof.Machine

/-! ### Where a cursor can be left -/

/-- `c'` is `c`, or `c` after one advance. -/
def Cursor.reaches (c c' : Cursor) : Prop := c' = c ∨ ∃ n, c' = c.skip n

section Reaches

variable {c c' c'' : Cursor}

theorem Cursor.reaches_refl (c : Cursor) : c.reaches c := .inl rfl

theorem Cursor.reaches_skip (c : Cursor) (n : Nat) : c.reaches (c.skip n) := .inr ⟨n, rfl⟩

theorem Cursor.reaches.trans (h : c.reaches c') (h' : c'.reaches c'') : c.reaches c'' := by
  rcases h' with rfl | ⟨n, rfl⟩
  · exact h
  · rcases h with rfl | ⟨m, rfl⟩
    · exact c'.reaches_skip n
    · exact .inr ⟨m + n, c.skip_skip m n⟩

theorem Cursor.reaches.fair (h : c.reaches c') (hfair : c.fair) : c'.fair := by
  rcases h with rfl | ⟨n, rfl⟩
  · exact hfair
  · exact c.skip_fair n

theorem Cursor.reaches.buf_eq (h : c.reaches c') : c'.buf = c.buf := by
  rcases h with rfl | ⟨n, rfl⟩ <;> rfl

theorem Cursor.reaches.pos_le (h : c.reaches c') : c.pos ≤ c'.pos := by
  rcases h with rfl | ⟨n, rfl⟩
  · exact le_rfl
  · exact Nat.le_add_right _ _

/-- A command's cursor past the end of its buffer has OVR set. -/
theorem Cursor.reaches.overrun {buf : List Byte} (h : (Cursor.over buf).reaches c) (hpos : 8 * buf.length < c.pos) :
    c.ovr = true :=
  h.fair (Cursor.over_fair buf) (by rw [Cursor.len, h.buf_eq]; exact hpos)

end Reaches

/-! ### The codes (R176, R177, R206) -/

theorem walkFrom_reaches {w : Nat} (nodes : List (Node w)) : ∀ (fuel : Nat) (c : Cursor) (p : Nat),
    c.reaches (walkFrom fuel nodes c p).2 := by
  intro fuel
  induction fuel with
  | zero => intro c p; exact c.reaches_refl
  | succ fuel ih =>
    intro c p
    rw [walkFrom]
    split
    · exact c.reaches_refl
    · exact (c.reaches_skip 1).trans (ih _ _)

theorem lookup_reaches {w : Nat} (nodes : List (Node w)) (pfx : List PfxEntry) (c : Cursor) :
    c.reaches (lookup nodes pfx c).2 :=
  (c.reaches_skip _).trans (walkFrom_reaches _ _ _ _)

theorem byteGetCode_reaches (t : ByteTree) (c : Cursor) : c.reaches (byteGetCode t c).2 := by
  unfold byteGetCode
  split
  · exact c.reaches_refl
  · exact lookup_reaches _ _ c

theorem wordGetCode_reaches (w : WordTree) (c : Cursor) : c.reaches (wordGetCode w c).2.2 := by
  unfold wordGetCode
  split
  · exact c.reaches_refl
  · exact lookup_reaches _ _ c

/-! ### The byte trees (R170, R171) -/

section Byte

variable {b : ByteTree} {c : Cursor} {code len : Nat} {r : ByteTree × Cursor × Nat}

theorem byteLeaf_reaches (h : byteLeaf b c code len = .ok r) : c.reaches r.2.1 := by
  rw [byteLeaf_eq] at h
  split at h <;> cases h
  exact c.reaches_skip 8

theorem byteInternal_reaches {node : ByteTree → Cursor → Nat → Nat → ByteBuilt}
    (hnode : ∀ {b c code len r}, node b c code len = .ok r → c.reaches r.2.1)
    (h : byteInternal node b c code len = .ok r) : c.reaches r.2.1 := by
  rw [byteInternal_eq] at h
  split at h
  · obtain ⟨left, hleft, h⟩ := bind_ok h
    obtain ⟨right, hright, h⟩ := bind_ok h
    have hreach := (hnode hleft).trans (hnode hright)
    cases h
    exact hreach
  · cases h

end Byte

theorem byteNode_reaches : ∀ {fuel : Nat} {b : ByteTree} {c : Cursor} {code len : Nat} {r : ByteTree × Cursor × Nat},
    byteNode fuel b c code len = .ok r → c.reaches r.2.1 := by
  intro fuel
  induction fuel with
  | zero =>
    intro b c code len r h
    rw [byteNode] at h
    split at h
    · cases h
    · exact (c.reaches_skip 1).trans (byteLeaf_reaches h)
  | succ fuel ih =>
    intro b c code len r h
    rw [byteNode] at h
    split at h
    · exact (c.reaches_skip 1).trans (byteInternal_reaches ih h)
    · exact (c.reaches_skip 1).trans (byteLeaf_reaches h)

theorem bytePresent_reaches {c : Cursor} {r : ByteTree × Cursor} (h : bytePresent c = .ok r) : c.reaches r.2 := by
  obtain ⟨b, hnode, h⟩ := bind_ok h
  cases h
  exact (byteNode_reaches hnode).trans (Cursor.reaches_skip _ 1)

theorem buildByteTree_reaches {c : Cursor} {r : ByteTree × Cursor} (h : buildByteTree c = .ok r) : c.reaches r.2 := by
  rw [buildByteTree] at h
  split at h
  · exact (c.reaches_skip 1).trans (bytePresent_reaches h)
  · cases h
    exact c.reaches_skip 1

/-! ### The word trees (R200, R201) -/

section Word

variable {cap : Nat} {lo hi : ByteTree} {b : WordDraft} {c : Cursor} {code len : Nat} {r : WordDraft × Cursor × Nat}

theorem wordLeaf_reaches (h : wordLeaf cap lo hi b c code len = .ok r) : c.reaches r.2.1 := by
  rw [wordLeaf_eq] at h
  split at h <;> cases h
  exact (byteGetCode_reaches lo c).trans (byteGetCode_reaches hi _)

theorem wordInternal_reaches {node : WordDraft → Cursor → Nat → Nat → WordBuilt}
    (hnode : ∀ {b c code len r}, node b c code len = .ok r → c.reaches r.2.1)
    (h : wordInternal cap node b c code len = .ok r) : c.reaches r.2.1 := by
  rw [wordInternal_eq] at h
  split at h
  · obtain ⟨left, hleft, h⟩ := bind_ok h
    obtain ⟨right, hright, h⟩ := bind_ok h
    have hreach := (hnode hleft).trans (hnode hright)
    cases h
    exact hreach
  · cases h

end Word

theorem wordNode_reaches {cap : Nat} {lo hi : ByteTree} : ∀ {fuel : Nat} {b : WordDraft} {c : Cursor} {code len : Nat}
    {r : WordDraft × Cursor × Nat}, wordNode cap lo hi fuel b c code len = .ok r → c.reaches r.2.1 := by
  intro fuel
  induction fuel with
  | zero =>
    intro b c code len r h
    rw [wordNode] at h
    split at h
    · cases h
    · exact (c.reaches_skip 1).trans (wordLeaf_reaches h)
  | succ fuel ih =>
    intro b c code len r h
    rw [wordNode] at h
    split at h
    · exact (c.reaches_skip 1).trans (wordInternal_reaches ih h)
    · exact (c.reaches_skip 1).trans (wordLeaf_reaches h)

theorem readMarkers_reaches (c : Cursor) : c.reaches (readMarkers c).2 :=
  ((c.reaches_skip 16).trans (Cursor.reaches_skip _ 16)).trans (Cursor.reaches_skip _ 16)

theorem wordPresent_reaches {cap : Nat} {w : WordTree} {c : Cursor} {r : WordTree × Cursor}
    (h : wordPresent cap (clearWordTree w) c = .ok r) : c.reaches r.2 := by
  rw [wordPresent_eq] at h
  obtain ⟨lo, hlo, h⟩ := bind_ok h
  obtain ⟨hi, hhi, h⟩ := bind_ok h
  obtain ⟨node, hnode, h⟩ := bind_ok h
  obtain ⟨tree, _, h⟩ := bind_ok h
  cases h
  have hmarkers : c.reaches (readMarkers hi.2).2 :=
    ((buildByteTree_reaches hlo).trans (buildByteTree_reaches hhi)).trans (readMarkers_reaches hi.2)
  exact (hmarkers.trans (wordNode_reaches hnode)).trans (Cursor.reaches_skip _ 1)

theorem buildWordTree_reaches {cap : Nat} {w : WordTree} {c : Cursor} {r : WordTree × Cursor}
    (h : buildWordTree cap w c = .ok r) : c.reaches r.2 := by
  rw [buildWordTree] at h
  split at h
  · exact (c.reaches_skip 1).trans (wordPresent_reaches h)
  · cases h
    exact c.reaches_skip 1

/-! ### The frame decoder (R241 to R251) -/

/-- From `f` to `f'` the cursor has moved on and `n` blocks have been passed. -/
structure FrameState.Onward (n : Nat) (f f' : FrameState) : Prop where
  cur : f.cur.reaches f'.cur
  blk : f'.blk = f.blk + n

section Frame

variable {g : Cfg}

theorem FrameState.Onward.refl (f : FrameState) : Onward 0 f f := ⟨f.cur.reaches_refl, rfl⟩

theorem FrameState.Onward.trans {m n : Nat} {f f' f'' : FrameState} (h : Onward m f f') (h' : Onward n f' f'') :
    Onward (m + n) f f'' :=
  ⟨h.cur.trans h'.cur, by rw [h'.blk, h.blk, Nat.add_assoc]⟩

/-- Pixels do not matter here. -/
theorem FrameState.Onward.withSurf {n : Nat} {f f' : FrameState} (h : Onward n f f') (surf : Memory Byte) :
    Onward n f { f' with surf := surf } := ⟨h.cur, h.blk⟩

theorem FrameState.onward_getCode (f : FrameState) (k : TreeId) : Onward 0 f (f.getCode k).2 :=
  ⟨wordGetCode_reaches _ _, rfl⟩

open FrameState (Onward onward_getCode)

theorem onward_blockMono (f : FrameState) : Onward 0 f (blockMono g f) :=
  ((onward_getCode f .mclr).trans (onward_getCode _ .mmap)).withSurf _

theorem onward_fullRow0 (f : FrameState) (r : Nat) : Onward 0 f (fullRow0 g f r) :=
  ((onward_getCode f .full).trans (onward_getCode _ .full)).withSurf _

theorem onward_fullHalf1 (f : FrameState) (r : Nat) : Onward 0 f (fullHalf1 g f r) :=
  (onward_getCode f .full).withSurf _

theorem onward_fullHalf2 (f : FrameState) (r : Nat) : Onward 0 f (fullHalf2 g f r) :=
  ((onward_getCode f .full).trans (onward_getCode _ .full)).withSurf _

theorem onward_blockFull (mode : Nat) (f : FrameState) : Onward 0 f (blockFull g mode f) := by
  unfold blockFull
  split_ifs
  · exact (onward_fullHalf1 f 0).trans (onward_fullHalf1 _ 2)
  · exact (onward_fullHalf2 f 0).trans (onward_fullHalf2 _ 2)
  · exact (((onward_fullRow0 f 0).trans (onward_fullRow0 _ 1)).trans (onward_fullRow0 _ 2)).trans (onward_fullRow0 _ 3)

theorem onward_blockFill (col : Byte) (f : FrameState) : Onward 0 f (blockFill g col f) := (Onward.refl f).withSurf _

theorem onward_paint {block : FrameState → FrameState} (h : ∀ f, Onward 0 f (block f)) (f : FrameState) :
    Onward 1 f (paint block f) := ⟨(h f).cur, congrArg (· + 1) (h f).blk⟩

theorem onward_skipBlock (f : FrameState) : Onward 1 f (skipBlock f) := ⟨f.cur.reaches_refl, rfl⟩

theorem onward_repeatBlock {block : FrameState → FrameState} (h : ∀ f, Onward 1 f (block f)) :
    ∀ (n : Nat) (f : FrameState), Onward n f (repeatBlock block n f) := by
  intro n
  induction n with
  | zero => exact Onward.refl
  | succ n ih =>
    intro f
    have hrest := (h f).trans (ih (block f))
    rwa [Nat.add_comm] at hrest

theorem fullSel_reaches (sv : SubVer) (c : Cursor) : c.reaches (fullSel sv c).2 := by
  have htwo : c.reaches ((c.skip 1).skip 1) := (c.reaches_skip 1).trans (Cursor.reaches_skip _ 1)
  unfold fullSel
  cases sv with
  | v2 => exact c.reaches_refl
  | v4 =>
    dsimp only
    split_ifs
    · exact c.reaches_skip 1
    · exact htwo
    · exact htwo

theorem onward_runMono (runidx : BitVec 6) (f : FrameState) :
    Onward (clampedRun g runidx f.blk) f (runMono g runidx f) :=
  onward_repeatBlock (onward_paint onward_blockMono) _ f

theorem onward_runSkip (runidx : BitVec 6) (f : FrameState) :
    Onward (clampedRun g runidx f.blk) f (runSkip g runidx f) :=
  onward_repeatBlock onward_skipBlock _ f

theorem onward_runFill (runidx : BitVec 6) (col : Byte) (f : FrameState) :
    Onward (clampedRun g runidx f.blk) f (runFill g runidx col f) :=
  onward_repeatBlock (onward_paint (onward_blockFill col)) _ f

/-- FULL blocks from the cursor a selector leaves. -/
theorem onward_fullBlocks (mode n : Nat) {f : FrameState} {c : Cursor} (h : f.cur.reaches c) :
    Onward n f (fullBlocks g mode n { f with cur := c }) := by
  have hblocks := onward_repeatBlock (onward_paint (onward_blockFull (g := g) mode)) n { f with cur := c }
  exact ⟨h.trans hblocks.cur, hblocks.blk⟩

theorem onward_runFull (runidx : BitVec 6) (f : FrameState) :
    Onward (clampedRun g runidx f.blk) f (runFull g runidx f) :=
  onward_fullBlocks _ _ (fullSel_reaches _ _)

end Frame

/-! ### The ends of a command -/

section Ends

variable {s : State}

theorem idle_fair : Work.idle.cur.fair := Cursor.over_fair []

theorem State.raise_fair (h : s.work.cur.fair) (cause : Cause) : (s.raise cause).work.cur.fair := by
  unfold State.raise
  split
  · exact idle_fair
  · exact h

theorem State.orRaise_fair {α : Type} {r : Except Cause α} {k : α → State} (h : s.work.cur.fair)
    (hok : ∀ v, r = .ok v → (k v).work.cur.fair) : (s.orRaise r k).work.cur.fair := by
  rcases s.orRaise_cases r k with ⟨v, hr, hv⟩ | ⟨c, _, hc⟩
  · rw [hv]; exact hok v hr
  · rw [hc]; exact s.raise_fair h c

theorem State.whenAdmitted_fair {admitted : Bool} {run : State} (h : s.work.cur.fair) (hrun : run.work.cur.fair) :
    (s.whenAdmitted admitted run).work.cur.fair := by
  cases admitted with
  | false => exact h
  | true => exact hrun

end Ends

/-! ### Every instruction -/

/-- Every instruction leaves a fair cursor fair: a command ends with the idle cursor or the one it found, and a row
executed on its own leaves its cursor where it was or advances it. -/
theorem exec_keeps_fair {i : Instr} {s t : State} (h : s.work.cur.fair) (ht : exec i s = .next t) :
    t.work.cur.fair := by
  cases i <;> cases ht
  case configure ops =>
    refine s.whenAdmitted_fair h ?_
    cases subVerOf ops.sig with
    | none => exact s.raise_fair h _
    | some sv => exact idle_fair
  case buildTrees | decodeFrame | unpackPalette => exact s.whenAdmitted_fair h (s.orRaise_fair h fun _ _ => idle_fair)
  case decodeAudio =>
    refine s.whenAdmitted_fair h (s.orRaise_fair h fun _ _ => s.orRaise_fair h fun r _ => ?_)
    cases r <;> exact idle_fair
  case getDirtyRect =>
    refine s.whenAdmitted_fair h ?_
    unfold State.nextRect
    split <;> exact idle_fair
  case ackPalette => exact s.whenAdmitted_fair h idle_fair
  case reservedCmd => exact h
  case blkMono runidx _ => exact (onward_runMono runidx s.frame).cur.fair h
  case blkFull runidx _ => exact (onward_runFull runidx s.frame).cur.fair h
  case blkSkip runidx _ => exact (onward_runSkip runidx s.frame).cur.fair h
  case blkFill runidx col => exact (onward_runFill runidx col s.frame).cur.fair h
  case fullV2 => exact (onward_fullBlocks _ _ (f := s.frame) (Cursor.reaches_refl _)).cur.fair h
  case fullV4M1 | fullV4M2 | fullV4M0 =>
    exact (onward_fullBlocks _ _ (f := s.frame) (Cursor.reaches_skip _ _)).cur.fair h
  case palSkip | palCopy | palLit => exact s.orRaise_fair h fun _ _ => h
  case btEmpty | wtEmpty => exact s.work.cur.skip_fair 1
  case btPresent => exact s.orRaise_fair h fun _ hr => (bytePresent_reaches hr).fair (s.work.cur.skip_fair 1)
  case bnodeLeaf => exact s.orRaise_fair h fun _ hr => (byteLeaf_reaches hr).fair (s.work.cur.skip_fair 1)
  case bnodeInternal =>
    exact s.orRaise_fair h fun _ hr => (byteInternal_reaches byteNode_reaches hr).fair (s.work.cur.skip_fair 1)
  case wtPresent => exact s.orRaise_fair h fun _ hr => (wordPresent_reaches hr).fair (s.work.cur.skip_fair 1)
  case wnodeLeaf => exact s.orRaise_fair h fun _ hr => (wordLeaf_reaches hr).fair (s.work.cur.skip_fair 1)
  case wnodeInternal =>
    exact s.orRaise_fair h fun _ hr => (wordInternal_reaches wordNode_reaches hr).fair (s.work.cur.skip_fair 1)
  case audAbsent => exact idle_fair
  case audPresent => exact s.orRaise_fair h fun _ _ => s.orRaise_fair h fun _ _ => idle_fair
  case readBit => exact s.work.cur.skip_fair 1
  case readBits n | skip n => exact s.work.cur.skip_fair n
  case peek8 => simpa only [State.withResult_work] using h
  case wordReset => exact h
  case byteBuild => exact s.orRaise_fair h fun _ hr => (buildByteTree_reaches hr).fair h
  case byteGetcode src => exact (byteGetCode_reaches (s.work.byteTree src) s.work.cur).fair h
  case wordBuild => exact s.orRaise_fair h fun _ hr => (buildWordTree_reaches hr).fair h
  case wordGetcode k => exact (wordGetCode_reaches (s.wt.get k) s.work.cur).fair h

end Sys2Proof.Machine

namespace Sys2Proof.Proofs

open Sys2Proof.Machine

/-- Settles O14: the idle cursor stands at the start, and every instruction leaves a fair cursor fair. -/
theorem overrunFlagStaysTrue : Obligations.OverrunFlagStaysTrue :=
  ⟨idle_fair, fun _ _ _ h ht => exec_keeps_fair h ht⟩

end Sys2Proof.Proofs
end

section
/-! PROOFS. The overrun check at the end of a command whose buffer is too short (40_bitcursor.md R146): BUILD_TREES
(43_frame_decoder.md R240), DECODE_FRAME (R241) and DECODE_AUDIO (46_audio.md R340): O40. -/

namespace Sys2Proof.Machine

/-! ### The end of a command whose cursor has passed its buffer -/

/-- An advance past the end of the buffer sets OVR. -/
theorem Cursor.over_skip_overrun {buf : List Byte} {n : Nat} (h : 8 * buf.length < n) :
    ((Cursor.over buf).skip n).ovr = true :=
  (Cursor.reaches_skip _ n).overrun (by simpa [Cursor.over] using h)

/-- A computation that raises a fatal cause ends the command in FAILED with its class. -/
theorem State.orRaise_of_fatal (s : State) {α : Type} {r : Except Cause α} {cause : Cause} (k : α → State)
    (hr : r = .error cause) (h : cause.code.fatal = true) :
    (s.orRaise r k).status = { code := cause.code, cause := cause } ∧ (s.orRaise r k).phase = .failed := by
  rw [hr, State.orRaise_error]
  exact ⟨s.raise_status cause, s.raise_phase_of_fatal h⟩

/-! ### The bootstrap blob (R240) -/

theorem bootstrap_of_overrun {g : Cfg} {wt wt' : Trees} {blob : List Byte} {c : Cursor}
    (h : buildFour g wt (Cursor.over blob) = .ok (wt', c)) (hovr : c.ovr = true) :
    bootstrap g wt blob = .error .bootstrapOverrun := by
  rw [bootstrap, h]
  simp [bind, Except.bind, hovr]

/-- Past the end of an empty buffer the stream shows zeros. -/
theorem Cursor.empty_bit (i : Nat) : (Cursor.over []).bit i = false := Cursor.bit_past_end _ (Nat.zero_le _)

/-- An empty buffer shows four empty trees. -/
theorem Cursor.empty_shows :
    (Cursor.over []).shows 0 (wordTreeBits none ++ wordTreeBits none ++ wordTreeBits none ++ wordTreeBits none) := by
  change (Cursor.over []).shows 0 [some false, some false, some false, some false]
  simp only [Cursor.shows_cons, Cursor.empty_bit, true_and]
  exact fun k b hk => by cases hk

/-! ### The block runs of a frame (R241, R244) -/

section Frame

variable {g : Cfg} {f : FrameState}

theorem clampedRun_pos (hblk : f.blk < g.nb) (runidx : BitVec 6) : 0 < clampedRun g runidx f.blk := by
  have hrun : 0 < runLen runidx := by
    unfold runLen
    split
    · exact Nat.succ_pos _
    · rw [Nat.shiftLeft_eq]; positivity
  exact Nat.lt_min.2 ⟨hrun, Nat.sub_pos_of_lt hblk⟩

/-- A block run passes the blocks of its clamped length after it has read its type code. -/
theorem onward_blockRun (g : Cfg) (f : FrameState) :
    ∃ runidx, FrameState.Onward (clampedRun g runidx f.blk) (f.getCode .typ).2 (blockRun g f) := by
  obtain ⟨kind, runidx, color, hcode⟩ := exists_packTypeCode (f.getCode .typ).1
  refine ⟨runidx, ?_⟩
  unfold blockRun
  dsimp only
  rw [hcode]
  rcases kind_cases kind with rfl | rfl | rfl | rfl
  · rw [decodeTypeCode_mono]; exact onward_runMono runidx (f.getCode .typ).2
  · rw [decodeTypeCode_full]; exact onward_runFull runidx (f.getCode .typ).2
  · rw [decodeTypeCode_skip]; exact onward_runSkip runidx (f.getCode .typ).2
  · rw [decodeTypeCode_fill]; exact onward_runFill runidx color (f.getCode .typ).2

theorem blockRun_reaches (g : Cfg) (f : FrameState) : f.cur.reaches (blockRun g f).cur := by
  obtain ⟨_, honward⟩ := onward_blockRun g f
  exact (f.onward_getCode .typ).cur.trans honward.cur

theorem blockRun_blk_lt (hblk : f.blk < g.nb) : f.blk < (blockRun g f).blk := by
  obtain ⟨runidx, honward⟩ := onward_blockRun g f
  have hpos := clampedRun_pos hblk runidx
  rw [honward.blk]
  exact Nat.lt_add_of_pos_right hpos

/-- Block runs that each start inside the grid pass at least one block each. -/
theorem le_blk_iterate_blockRun : ∀ {n : Nat}, (∀ m, m < n → ((blockRun g)^[m] f).blk < g.nb) →
    n ≤ ((blockRun g)^[n] f).blk := by
  intro n
  induction n with
  | zero => intro _; exact Nat.zero_le _
  | succ n ih =>
    intro h
    rw [Function.iterate_succ_apply']
    exact Nat.lt_of_le_of_lt (ih fun m hm => h m (Nat.lt_succ_of_lt hm)) (blockRun_blk_lt (h n (Nat.lt_succ_self n)))

/-- The loop is the block runs up to the first that ends at NB. -/
theorem frameLoop_eq_iterate : ∀ {n fuel : Nat} {f : FrameState}, n ≤ fuel →
    (∀ m, m < n → ((blockRun g)^[m] f).blk < g.nb) → ((blockRun g)^[n] f).blk = g.nb →
    frameLoop g fuel f = (blockRun g)^[n] f := by
  intro n
  induction n with
  | zero =>
    intro fuel f _ _ hend
    have hblk : ¬ f.blk < g.nb := Nat.not_lt.2 (Nat.le_of_eq hend.symm)
    cases fuel with
    | zero => rfl
    | succ fuel => rw [frameLoop, if_neg hblk]; rfl
  | succ n ih =>
    intro fuel f hle hin hend
    obtain ⟨fuel, rfl⟩ : ∃ k, fuel = k + 1 := ⟨fuel - 1, by omega⟩
    rw [frameLoop, if_pos (show f.blk < g.nb from hin 0 (Nat.succ_pos n))]
    exact ih (Nat.le_of_succ_le_succ hle) (fun m hm => hin (m + 1) (Nat.succ_lt_succ hm)) hend

theorem frameLoop_reaches : ∀ (fuel : Nat) (f : FrameState), f.cur.reaches (frameLoop g fuel f).cur := by
  intro fuel
  induction fuel with
  | zero => intro f; exact f.cur.reaches_refl
  | succ fuel ih =>
    intro f
    rw [frameLoop]
    split
    · exact (blockRun_reaches g f).trans (ih _)
    · exact f.cur.reaches_refl

/-- A frame whose loop leaves the cursor past the end of the buffer is an overrun. -/
theorem decodeFrame_of_overrun {wt : Trees} {surf : Memory Byte} {vid : List Byte}
    (h : 8 * vid.length < (frameLoop g g.nb (frameStart wt surf vid)).cur.pos) :
    decodeFrame g wt surf vid = .error .frameOverrun := by
  have hovr := (frameLoop_reaches (g := g) g.nb (frameStart wt surf vid)).overrun h
  rw [decodeFrame, if_pos hovr]

theorem exec_decodeFrame {s : State} (vid : List Byte) (hp : s.phase = .ready) :
    exec (.decodeFrame vid) s =
      .next (s.orRaise (decodeFrame s.cfg s.wt s.surf vid) fun f =>
        State.finish { s with wt := f.wt, surf := f.surf, dirty := f.dirty, scan := 0 }) := by
  change execDecodeFrame vid s = _
  simp [execDecodeFrame, hp]

end Frame

/-! ### A code of a tree whose root is internal (R177, R206) -/

/-- Every stream begins with a code of every code tree. -/
theorem CodeTree.exists_find {α : Type} (c : Cursor) : ∀ (t : CodeTree α) (p : Nat),
    ∃ bs v, t.find bs = some v ∧ c.shows p (fixed bs)
  | .leaf v, _ => ⟨[], v, rfl, fun _ _ h => by cases h⟩
  | .fork l r, p => by
    cases hbit : c.bit p with
    | false =>
      obtain ⟨bs, v, hfind, hs⟩ := l.exists_find c (p + 1)
      exact ⟨false :: bs, v, hfind, (c.shows_cons p false _).2 ⟨hbit, hs⟩⟩
    | true =>
      obtain ⟨bs, v, hfind, hs⟩ := r.exists_find c (p + 1)
      exact ⟨true :: bs, v, hfind, (c.shows_cons p true _).2 ⟨hbit, hs⟩⟩

/-- The root of a word tree that is not empty is an internal node. -/
def rootInternal (w : WordTree) : Prop := w.empty = false ∧ ∃ r, w.nodes[0]? = some (.internal r)

/-- A code of a tree whose root is internal has at least one bit. -/
theorem wordGetCode_pos_lt {cap : Nat} {w : WordTree} (c : Cursor) (hsound : soundTree cap w)
    (hroot : rootInternal w) : c.pos < (wordGetCode w c).2.2.pos := by
  obtain ⟨hempty, r, hr⟩ := hroot
  rcases hsound with ⟨htrue, _⟩ | ⟨_, _, t, extra, _, hnodes, hpfx, _⟩
  · rw [hempty] at htrue; cases htrue
  · obtain ⟨bs, v, hfind, hs⟩ := t.exists_find c c.pos
    have hbits : 0 < bs.length := by
      cases t with
      | leaf u => rw [hnodes] at hr; cases hr
      | fork left right =>
        cases bs with
        | nil => cases hfind
        | cons b bs => exact Nat.succ_pos _
    have hlookup := lookup_of_find (extra.map Node.leaf) hfind hs
    rw [← hnodes, ← hpfx] at hlookup
    have hcur : (wordGetCode w c).2.2 = c.skip bs.length := by simp [wordGetCode, hempty, hlookup]
    rw [hcur]
    exact Nat.lt_add_of_pos_right hbits

/-- A slot of a sound tree is a leaf, so its reset leaves an internal root. -/
theorem wordReset_rootInternal {cap : Nat} {w : WordTree} (hsound : soundTree cap w) (hroot : rootInternal w) :
    rootInternal (wordReset w) := by
  obtain ⟨hempty, r, hr⟩ := hroot
  rcases hsound with ⟨htrue, _⟩ | ⟨_, _, _, _, _, _, _, hslots⟩
  · rw [hempty] at htrue; cases htrue
  · have hne : ∀ j, w.slot.get j ≠ 0 := fun j hzero => by
      obtain ⟨v, hv⟩ := hslots j
      rw [hzero, hr] at hv
      cases hv
    have hreset : wordReset w =
        { w with
          nodes :=
            ((w.nodes.set (w.slot.get 0) (.leaf 0)).set (w.slot.get 1) (.leaf 0)).set (w.slot.get 2) (.leaf 0) } := by
      rw [wordReset, hempty]; rfl
    rw [hreset]
    exact ⟨hempty, r, by
      rw [List.getElem?_set_ne (hne 2), List.getElem?_set_ne (hne 1), List.getElem?_set_ne (hne 0), hr]⟩

/-- A frame that has a block, and a TYPE tree with an internal root, reads at least one bit. -/
theorem frameLoop_pos {g : Cfg} {wt : Trees} (surf : Memory Byte) (vid : List Byte) (hnb : 0 < g.nb)
    (hsound : soundTree (g.cap .typ) wt.typ) (hroot : rootInternal wt.typ) :
    0 < (frameLoop g g.nb (frameStart wt surf vid)).cur.pos := by
  have hcode : 0 < ((frameStart wt surf vid).getCode .typ).2.cur.pos :=
    wordGetCode_pos_lt (Cursor.over vid) (soundTree_wordReset hsound).1 (wordReset_rootInternal hsound hroot)
  obtain ⟨_, honward⟩ := onward_blockRun g (frameStart wt surf vid)
  obtain ⟨n, hn⟩ : ∃ n, g.nb = n + 1 := ⟨g.nb - 1, by omega⟩
  have hloop : frameLoop g g.nb (frameStart wt surf vid) = frameLoop g n (blockRun g (frameStart wt surf vid)) := by
    rw [hn, frameLoop, if_pos (show (frameStart wt surf vid).blk < g.nb from hnb)]
  rw [hloop]
  exact hcode.trans_le (honward.cur.trans (frameLoop_reaches n _)).pos_le

/-! ### A chunk with data (R340) -/

/-- The bits of the bases. -/
def ChunkCode.bases (d : ChunkCode) : Pattern := (if d.st then d.baseBits d.right else []) ++ d.baseBits d.left

/-- The bits of the delta frames. -/
def ChunkCode.deltas (d : ChunkCode) : Pattern := d.frames.flatMap fun f => f.flatMap fixed

theorem ChunkCode.body_eq (d : ChunkCode) : d.body = d.planes.flatMap byteTreeBits ++ (d.bases ++ d.deltas) :=
  List.append_assoc _ _ _

/-- The plane trees built, the frames consume the bits of the bases and of the codes. -/
theorem chunkFrames_cur {d : ChunkCode} {a : AudioState} (hlegal : d.legal) (hout : a.samples = [])
    (hs : a.cur.shows a.cur.pos (d.bases ++ d.deltas)) :
    (deltaFrames d.format (d.planes.map byteTreeOf) d.frames.length
      (emitFrame d.format (readBases d.format a))).cur = a.cur.skip (d.bases ++ d.deltas).length := by
  obtain ⟨sbases, sdeltas⟩ := (a.cur.shows_append _ _ _).1 hs
  obtain ⟨hfirst, hfirstCur⟩ := firstFrame_of_shows (d := d) hout sbases
  obtain ⟨_, hcur⟩ := deltaFrames_of_shows hlegal (Nat.zero_add _) hfirst (hfirstCur ▸ a.cur.skip_fair _)
    (by rw [hfirstCur]; exact sdeltas)
  rw [hcur, hfirstCur, List.drop_zero, Cursor.skip_skip, ← List.length_append]
  rfl

/-- The checks passed and the plane trees built, the frames follow, and the overrun check (R340). -/
theorem audioBody_of_planes {d : ChunkCode} {info : Word} {unpacked : Nat} {a : AudioState} {planes : List ByteTree}
    {c : Cursor} (hst : infoIsStereo info = d.st) (hb16 : infoIs16Bit info = d.b16)
    (hsize : unpacked = d.np * (d.frames.length + 1)) (hplanes : buildPlanes d.np a.cur = .ok (planes, c)) :
    audioBody info unpacked d.format a =
      let r := deltaFrames d.format planes d.frames.length (emitFrame d.format (readBases d.format { a with cur := c }))
      if r.cur.ovr then .error .audioOverrun else .ok r := by
  have hchecks : ¬ (d.format.st ≠ infoIsStereo info ∨ d.format.b16 ≠ infoIs16Bit info) := by
    simp [ChunkCode.format, hst, hb16]
  have hfits : sizeFits d.format unpacked = true := by
    simp [sizeFits, ChunkCode.planes_format, hsize, Nat.le_mul_of_pos_right]
  have hframes : unpacked / d.np - 1 = d.frames.length := by
    rw [hsize, Nat.mul_div_cancel_left _ d.np_pos, Nat.add_sub_cancel]
  rw [audioBody, if_neg hchecks, hfits, if_neg (by decide), ChunkCode.planes_format, hplanes, hframes]
  rfl

/-- A chunk with data whose bits end past its buffer is an overrun. -/
theorem audioPresent_of_overrun {d : ChunkCode} {info : Word} {unpacked : Nat} {a : AudioState} (hlegal : d.legal)
    (hst : infoIsStereo info = d.st) (hb16 : infoIs16Bit info = d.b16)
    (hsize : unpacked = d.np * (d.frames.length + 1)) (hout : a.samples = [])
    (hs : a.cur.shows a.cur.pos (some d.st :: some d.b16 :: d.body))
    (hovr : (a.cur.skip (2 + d.body.length)).ovr = true) :
    audioPresent info unpacked a = .error .audioOverrun := by
  obtain ⟨hnp, hfits, _⟩ := id hlegal
  obtain ⟨hbit1, hs⟩ := (a.cur.shows_cons _ _ _).1 hs
  obtain ⟨hbit2, hs⟩ := (a.cur.shows_cons _ _ _).1 hs
  rw [ChunkCode.body_eq] at hs hovr
  obtain ⟨splanes, sframes⟩ := (a.cur.shows_append _ _ _).1 hs
  have hplanes := buildPlanes_of_fits (c := a.cur.skip 2) hfits (a.cur.skip_fair 2) splanes
  have hcur := chunkFrames_cur
    (a := { a with cur := (a.cur.skip 2).skip (d.planes.flatMap byteTreeBits).length }) hlegal hout sframes
  rw [hnp] at hplanes
  rw [Cursor.skip_skip, Cursor.skip_skip] at hcur
  rw [List.length_append, ← Nat.add_assoc, ← hcur] at hovr
  rw [audioPresent_of_bits hbit1 hbit2]
  refine (audioBody_of_planes (d := d) (a := { a with cur := a.cur.skip 2 }) hst hb16 hsize hplanes).trans ?_
  rw [Cursor.skip_skip]
  exact if_pos hovr

theorem decodeChunk_of_overrun {d : ChunkCode} {info : Word} {unpacked : Nat} {chunk : List Byte} (hlegal : d.legal)
    (hst : infoIsStereo info = d.st) (hb16 : infoIs16Bit info = d.b16)
    (hsize : unpacked = d.np * (d.frames.length + 1)) (hs : (Cursor.over chunk).shows 0 d.bits)
    (hlen : 8 * chunk.length < d.bits.length) : decodeChunk info unpacked chunk = .error .audioOverrun := by
  rw [d.bits_eq] at hs hlen
  obtain ⟨hbit, hs⟩ := (Cursor.shows_cons _ _ _ _).1 hs
  have hend : (((Cursor.over chunk).skip 1).skip (2 + d.body.length)).ovr = true := by
    rw [Cursor.skip_skip]
    exact Cursor.over_skip_overrun (by simp only [List.length_cons] at hlen; omega)
  have hraise := audioPresent_of_overrun (a := { audioStart chunk with cur := (Cursor.over chunk).skip 1 })
    hlegal hst hb16 hsize rfl hs hend
  rw [decodeChunk_present hbit, hraise]
  rfl

/-! ### The three commands -/

/-- A blob that shows four trees inside their capacities, and ends before their bits do. -/
theorem buildTrees_of_overrun {mmap mclr full typ : Option WordCode} {blob : List Byte} {s : State}
    (hp : s.phase = .configured) (hmmap : wordTreeFits (s.cfg.cap .mmap) mmap)
    (hmclr : wordTreeFits (s.cfg.cap .mclr) mclr) (hfull : wordTreeFits (s.cfg.cap .full) full)
    (htyp : wordTreeFits (s.cfg.cap .typ) typ)
    (hs : (Cursor.over blob).shows 0 (wordTreeBits mmap ++ wordTreeBits mclr ++ wordTreeBits full ++ wordTreeBits typ))
    (hlen : 8 * blob.length <
      (wordTreeBits mmap ++ wordTreeBits mclr ++ wordTreeBits full ++ wordTreeBits typ).length) :
    ∃ t, exec (.buildTrees blob) s = .next t ∧
      t.status = { code := .dataTruncated, cause := .bootstrapOverrun } ∧ t.phase = .failed := by
  have hfour := buildFour_of_fits (g := s.cfg) (wt := s.wt) hmmap hmclr hfull htyp hs
  have hraise := bootstrap_of_overrun hfour (Cursor.over_skip_overrun hlen)
  exact ⟨_, exec_buildTrees blob hp, s.orRaise_of_fatal _ hraise rfl⟩

/-- A frame whose loop leaves the cursor past the end of the buffer. -/
theorem decodeFrame_ends_overrun {vid : List Byte} {s : State} (hp : s.phase = .ready)
    (h : 8 * vid.length < (frameLoop s.cfg s.cfg.nb (frameStart s.wt s.surf vid)).cur.pos) :
    ∃ t, exec (.decodeFrame vid) s = .next t ∧
      t.status = { code := .consistencyError, cause := .frameOverrun } ∧ t.phase = .failed :=
  ⟨_, exec_decodeFrame vid hp, s.orRaise_of_fatal _ (decodeFrame_of_overrun h) rfl⟩

end Sys2Proof.Machine

namespace Sys2Proof.Proofs

open Sys2Proof.Machine

/-- Settles O40: what the stream shows is read to its end, which lies past the buffer's: by the bits of the blob or the
chunk, by the block runs of the frame, or by the first code of an empty frame buffer. -/
theorem emptyBuffersOverrun : Obligations.EmptyBuffersOverrun := by
  refine ⟨fun mmap mclr full typ blob s hp hmmap hmclr hfull htyp hs hlen =>
      buildTrees_of_overrun hp hmmap hmclr hfull htyp hs hlen,
    fun vid n s hp hin hend hpos => ?frame,
    fun d track chunk unpacked info s hp hinfo haudio hdpcm hst hb16 hlegal hsize hs hlen => ?audio,
    fun s hp => ?emptyBlob, fun s hinv hp hnb hempty hroot => ?emptyFrame⟩
  case frame =>
    have hle : n ≤ s.cfg.nb := hend ▸ le_blk_iterate_blockRun hin
    refine decodeFrame_ends_overrun hp ?_
    rw [frameLoop_eq_iterate hle hin hend]
    exact hpos
  case audio =>
    have hraise := decodeChunk_of_overrun hlegal hst hb16 hsize hs hlen
    exact ⟨_, exec_decodeAudio chunk unpacked hp (audioDispatch_ok hinfo haudio hdpcm),
      s.orRaise_of_fatal _ hraise rfl⟩
  case emptyBlob =>
    exact buildTrees_of_overrun (mmap := none) (mclr := none) (full := none) (typ := none) hp trivial trivial trivial
      trivial Cursor.empty_shows (by decide)
  case emptyFrame =>
    obtain ⟨r, rest, hnodes⟩ := hroot
    have hinternal : rootInternal s.wt.typ := ⟨hempty, r, by rw [hnodes]; rfl⟩
    exact decodeFrame_ends_overrun hp (frameLoop_pos s.surf [] hnb (hinv.sound hp .typ) hinternal)

end Sys2Proof.Proofs
end

section
/-! PROOFS. Byte trees that were built (41_byte_tree.md R175, R178) and the byte tree rows, each executed on its own:
O19, O20, O21, O23, O24, O25. -/

namespace Sys2Proof.Machine

/-! ### The shape of a code tree (R175) -/

namespace CodeTree

variable {α : Type}

theorem labels_length_pos (t : CodeTree α) : 0 < t.labels.length := by
  cases t with
  | leaf v => exact Nat.one_pos
  | fork l r =>
    rw [labels, List.length_append]
    exact Nat.add_pos_left l.labels_length_pos _

/-- A full binary tree has one internal node less than leaves. -/
theorem count_eq_labels (t : CodeTree α) : t.count = 2 * t.labels.length - 1 := by
  induction t with
  | leaf v => rfl
  | fork l r ihl ihr =>
    have hl := l.labels_length_pos
    have hr := r.labels_length_pos
    simp only [count, labels, List.length_append]
    omega

/-- An entry is that of the node itself, which is a leaf, or of a leaf further down. -/
theorem entry_cases {k : Nat} {t : CodeTree α} : ∀ {i d : Nat} {e : PfxEntry}, t.entry k i d = some e →
    e = { node := i, len := d } ∨ d < e.len := by
  induction t with
  | leaf v => intro i d e h; cases h; exact .inl rfl
  | fork l r ihl ihr =>
    intro i d e h
    have hbelow : ∀ {j}, e = { node := j, len := d + 1 } ∨ d + 1 < e.len → d < e.len := by
      rintro j (rfl | hlt)
      · exact Nat.lt_succ_self d
      · exact Nat.lt_of_succ_lt hlt
    rw [entry] at h
    split at h
    · split at h
      · exact .inr (hbelow (ihr h))
      · exact .inr (hbelow (ihl h))
    · cases h

theorem table_length (t : CodeTree α) : t.table.length = 256 := by simp [table]

/-- Every entry of the table has a length of at least 1 or is (0, 0). -/
theorem table_cases {t : CodeTree α} {e : PfxEntry} (h : e ∈ t.table) : 1 ≤ e.len ∨ e.len = 0 ∧ e.node = 0 := by
  obtain ⟨k, _, rfl⟩ := List.mem_map.1 h
  cases hentry : t.entry k 0 0 with
  | none => exact .inr ⟨rfl, rfl⟩
  | some e =>
    rcases entry_cases hentry with rfl | hlt
    · exact .inr ⟨rfl, rfl⟩
    · exact .inl hlt

end CodeTree

/-! ### What is built is a code tree (R170, R171) -/

theorem byteLeaf_ok {b : ByteTree} {c : Cursor} {code len : Nat} {r : ByteTree × Cursor × Nat}
    (h : byteLeaf b c code len = .ok r) :
    ∃ t : CodeTree Byte, r.1 = growByte b t code len ∧ r.2.2 = t.count ∧ b.nodes.length + t.count ≤ 511 := by
  rw [byteLeaf_eq] at h
  split at h
  · next hlt => cases h; exact ⟨.leaf c.readByte.1, rfl, rfl, hlt⟩
  · cases h

/-- A construction that ends has appended the nodes of some code tree, and they fit. -/
theorem byteNode_ok : ∀ {fuel : Nat} {b : ByteTree} {c : Cursor} {code len : Nat} {r : ByteTree × Cursor × Nat},
    (len ≤ 8 → code < 2 ^ len) → byteNode fuel b c code len = .ok r →
    ∃ t : CodeTree Byte, r.1 = growByte b t code len ∧ r.2.2 = t.count ∧ b.nodes.length + t.count ≤ 511 := by
  intro fuel
  induction fuel with
  | zero =>
    intro b c code len r _ h
    rw [byteNode] at h
    split at h
    · cases h
    · exact byteLeaf_ok h
  | succ fuel ih =>
    intro b c code len r hcode h
    rw [byteNode] at h
    split at h
    · rw [byteInternal_eq] at h
      split at h
      · obtain ⟨⟨left, c1, r1⟩, hleft, h⟩ := bind_ok h
        obtain ⟨⟨right, c2, r2⟩, hright, h⟩ := bind_ok h
        obtain ⟨l, rfl, rfl, _⟩ := ih (leftCode_lt hcode) hleft
        obtain ⟨t, rfl, rfl, hfit⟩ := ih (rightCode_lt hcode) hright
        cases h
        rw [storeByte_length, growByte_length, reserveByte_length] at hfit
        exact ⟨.fork l t, growByte_fork b l t hcode, rfl, by simp only [CodeTree.count]; omega⟩
      · cases h
    · exact byteLeaf_ok h

/-- A tree that was built is the empty one, or stands for a code tree inside the capacity. -/
theorem buildByteTree_ok {c c' : Cursor} {t : ByteTree} (h : buildByteTree c = .ok (t, c')) :
    t = byteEmpty ∨ ∃ shape : CodeTree Byte, t = byteTreeOf (some shape) ∧ shape.count ≤ 511 := by
  rw [buildByteTree] at h
  split at h
  · obtain ⟨⟨tree, c1, n⟩, hnode, h⟩ := bind_ok h
    obtain ⟨shape, rfl, _, hfit⟩ := byteNode_ok (fun _ => Nat.one_pos) hnode
    cases h
    exact .inr ⟨shape, growByte_newByteTree shape, (Nat.zero_add _).symm.trans_le hfit⟩
  · cases h; exact .inl rfl

/-- A tree that was built and is not empty stands for a code tree. -/
theorem exists_shape_of_built {c c' : Cursor} {t : ByteTree} (h : buildByteTree c = .ok (t, c'))
    (hempty : t.empty = false) : ∃ shape : CodeTree Byte, t = byteTreeOf (some shape) ∧ shape.count ≤ 511 := by
  rcases buildByteTree_ok h with rfl | hshape
  · cases hempty
  · exact hshape

/-- The walk from the root takes the code the stream shows, to its leaf. -/
theorem walk_of_find {w : Nat} {t : CodeTree (BitVec w)} {bs : List Bool} {v : BitVec w} {c : Cursor} (hfair : c.fair)
    (h : t.find bs = some v) (hs : c.shows c.pos (fixed bs)) : walk t.cells c 0 = (t.place bs, c.skip bs.length) := by
  have hwalk := walkFrom_of_find (nodes := t.cells) (fuel := t.cells.length + 1) (p := 0) (m := 0) h
    (fun i _ => by rw [Nat.zero_add]) (by simp) hs
  rwa [Cursor.skip_zero hfair, Nat.zero_add, Nat.zero_add] at hwalk

/-! ### The rows (log 11) -/

section Rows

variable {s : State} (d : BtId)

theorem exec_byteBuild_of_ok {r : ByteTree × Cursor} (h : buildByteTree s.work.cur = .ok r) :
    exec (.byteBuild d) s = .next (s.withByteTree d r.1 r.2) := by
  change execByteBuild d s = _
  rw [execByteBuild, h, State.orRaise_ok]

theorem exec_btPresent_of_ok {r : ByteTree × Cursor} (h : bytePresent (s.work.cur.skip 1) = .ok r) :
    exec (.btPresent d) s = .next (s.withByteTree d r.1 r.2) := by
  change execBtPresent d s = _
  rw [execBtPresent, h, State.orRaise_ok]

/-- The row that the first bit of a node selects. -/
def bnodeRow (d : BtId) : CodeTree Byte → Instr
  | .leaf _ => .bnodeLeaf d
  | .fork _ _ => .bnodeInternal d

/-- It builds the node at the position the working state holds. -/
theorem exec_bnodeRow (t : CodeTree Byte) (hs : s.work.cur.shows s.work.cur.pos t.nodeBits) :
    exec (bnodeRow d t) s =
      .next (s.orRaise
        (byteNode (Config.byteCap + 1) (s.work.byteTree d) s.work.cur s.work.codePfx s.work.codeLen)
        (s.withByteNode d)) := by
  cases t with
  | leaf v =>
    obtain ⟨hbit, _⟩ := (Cursor.shows_cons _ _ _ _).1 hs
    rw [byteNode_leaf _ _ _ _ hbit]
    rfl
  | fork l r =>
    obtain ⟨hbit, _⟩ := (Cursor.shows_cons _ _ _ _).1 hs
    rw [byteNode_internal _ _ _ _ hbit]
    rfl

theorem exec_byteGetcode :
    exec (.byteGetcode d) s =
      .next (s.withResult ((byteGetCode (s.work.byteTree d) s.work.cur).1.setWidth 16)
        (byteGetCode (s.work.byteTree d) s.work.cur).2) := rfl

end Rows

end Sys2Proof.Machine

namespace Sys2Proof.Proofs

open Sys2Proof.Machine

/-- Settles O19: the bit 0 ends the construction, and an empty tree is asked for no bit. -/
theorem emptyByteTree : Obligations.EmptyByteTree := by
  refine fun d s => ⟨⟨rfl, fun hbit => ?build⟩, fun hempty => ?code⟩
  case build =>
    have hbuilt : buildByteTree s.work.cur = .ok (byteEmpty, s.work.cur.skip 1) := by simp [buildByteTree, hbit]
    exact exec_byteBuild_of_ok d hbuilt
  case code =>
    have hcode : byteGetCode (s.work.byteTree d) s.work.cur = (0, s.work.cur) := by simp [byteGetCode, hempty]
    rw [exec_byteGetcode, hcode]
    rfl

/-- Settles O20: BYTE_BUILD is BT_PRESENT after the bit 1, and the construction reads what the stream shows. -/
theorem byteBuildReadsTheTree : Obligations.ByteBuildReadsTheTree := by
  intro d t s hcount hs
  have hbuild := buildByteTree_of_fits (d := some t) hcount hs
  have hpresent := buildByteTree_present ((Cursor.shows_cons _ _ _ _).1 hs).1
  exact ⟨exec_byteBuild_of_ok d hbuild, exec_btPresent_of_ok d (hpresent.symm.trans hbuild)⟩

/-- Settles O21: the row is the node construction at its position, with all of BYTE_CAP levels left below it. -/
theorem byteNodeReadsTheSubtree : Obligations.ByteNodeReadsTheSubtree := by
  intro d t s hfit hcode hs
  have hnode := byteNode_of_shows t (fuel := Config.byteCap + 1) hcode
    (show 511 ≤ (s.work.byteTree d).nodes.length + 512 by omega) hs
  rw [if_pos hfit] at hnode
  refine (exec_bnodeRow d t hs).trans ?_
  rw [hnode]
  rfl

/-- Settles O23: the code's leaf is what the table and the walk lead to. -/
theorem byteGetcodeFollowsTheCode : Obligations.ByteGetcodeFollowsTheCode := by
  intro d code bs v s htree hcode hs hfair
  rw [exec_byteGetcode, htree, byteGetCode_of_code hcode hfair hs]
  rfl

/-- Settles O24: the stream begins with some code of the tree, and both ways lead to its leaf. -/
theorem prefixTableOnlyOptimises : Obligations.PrefixTableOnlyOptimises := by
  intro c c' d t hbuilt hempty hfair
  obtain ⟨shape, rfl, _⟩ := exists_shape_of_built hbuilt hempty
  obtain ⟨bs, v, hfind, hs⟩ := shape.exists_find d d.pos
  have hlookup := lookup_of_find [] hfind hs
  have hwalk := walk_of_find hfair hfind hs
  rw [List.append_nil, ← hwalk] at hlookup
  simp only [byteGetCode, byteTreeOf, hlookup, Bool.false_eq_true, if_false]

/-- Settles O25: what was built stands for a code tree, whose cells and table these are. -/
theorem byteTreeStructure : Obligations.ByteTreeStructure := by
  intro c c' t hbuilt hempty
  obtain ⟨shape, rfl, hfit⟩ := exists_shape_of_built hbuilt hempty
  have hlen : (byteTreeOf (some shape)).nodes.length = shape.count := shape.cells_length
  exact ⟨shape, rfl, hlen.trans shape.count_eq_labels, rfl, hlen.trans_le hfit, shape.table_length,
    fun _ he => CodeTree.table_cases he⟩

end Sys2Proof.Proofs
end

section
/-! PROOFS. A frame whose buffer is long enough for any code (43_frame_decoder.md R241, 42_word_tree.md R206, R207,
R209, 41_byte_tree.md R181): O39. -/

namespace Sys2Proof.Machine

/-! ### What a code costs and changes (R206, R207, R209) -/

/-- A code has fewer bits than its tree has nodes. -/
theorem CodeTree.find_length_lt {α : Type} {t : CodeTree α} : ∀ {bs : List Bool} {v : α}, t.find bs = some v →
    bs.length < t.count := by
  induction t with
  | leaf u =>
    intro bs v h
    cases bs with
    | nil => exact Nat.one_pos
    | cons b bs => cases h
  | fork l r ihl ihr =>
    intro bs v h
    cases bs with
    | nil => cases h
    | cons b bs =>
      cases b with
      | false => have := ihl h; simp only [count, List.length_cons]; omega
      | true => have := ihr h; simp only [count, List.length_cons]; omega

/-- A code of a sound tree takes at most as many bits as its capacity has cells. -/
theorem wordGetCode_pos_le {cap : Nat} {w : WordTree} (c : Cursor) (hsound : soundTree cap w) :
    (wordGetCode w c).2.2.pos ≤ c.pos + cap := by
  rcases hsound with ⟨hempty, _⟩ | ⟨hempty, hcap, t, extra, _, hnodes, hpfx, _⟩
  · rw [wordGetCode, if_pos hempty]
    exact Nat.le_add_right _ _
  · obtain ⟨bs, v, hfind, hs⟩ := t.exists_find c c.pos
    have hlookup := lookup_of_find (extra.map Node.leaf) hfind hs
    rw [← hnodes, ← hpfx] at hlookup
    have hcur : (wordGetCode w c).2.2 = c.skip bs.length := by simp [wordGetCode, hempty, hlookup]
    have hcount : t.count ≤ w.nodes.length := by simp [hnodes]
    have hbits := CodeTree.find_length_lt hfind
    rw [hcur, Cursor.skip_pos]
    omega

/-- The word tree with a value written to the cell of slot `j`. -/
def writeSlot (w : WordTree) (j : Fin 3) (v : Half) : WordTree :=
  { w with nodes := w.nodes.set (w.slot.get j) (.leaf v) }

theorem wordReset_eq {w : WordTree} (hempty : w.empty = false) :
    wordReset w = writeSlot (writeSlot (writeSlot w 0 0) 1 0) 2 0 := by
  have hfalse : ¬ w.empty = true := by simp [hempty]
  rw [wordReset, if_neg hfalse]
  rfl

/-- What a slot held before its tree is reset does not matter: the reset writes 0 to the cell of every slot. -/
theorem wordReset_writeSlot {w : WordTree} (hempty : w.empty = false) (j : Fin 3) (v : Half) :
    wordReset (writeSlot w j v) = wordReset w := by
  simp only [writeSlot, wordReset, hempty, Bool.false_eq_true, if_false, WordTree.mk.injEq, true_and, and_true]
  apply List.ext_getElem?
  intro i
  simp only [List.getElem?_set, List.length_set]
  fin_cases j <;> simp only [Tri.get] <;> grind

theorem wordReset_writeSlots {w : WordTree} (hempty : w.empty = false) (i j l : Fin 3) (x y z : Half) :
    wordReset (writeSlot (writeSlot (writeSlot w i x) j y) l z) = wordReset w := by
  have hone : (writeSlot w i x).empty = false := hempty
  have htwo : (writeSlot (writeSlot w i x) j y).empty = false := hempty
  rw [wordReset_writeSlot htwo, wordReset_writeSlot hone, wordReset_writeSlot hempty]

theorem wordReset_mruUpdate {w : WordTree} (hempty : w.empty = false) (v : Half) :
    wordReset { w with nodes := mruUpdate w.slot v w.nodes } = wordReset w := by
  unfold mruUpdate
  split
  · rfl
  · exact wordReset_writeSlots hempty 2 1 0 _ _ _

/-- A code changes its tree in slot cells only. -/
theorem wordReset_wordGetCode (w : WordTree) (c : Cursor) : wordReset (wordGetCode w c).2.1 = wordReset w := by
  unfold wordGetCode
  split
  · rfl
  · next hempty => exact wordReset_mruUpdate (by simpa using hempty) _

theorem wordReset_wordReset (w : WordTree) : wordReset (wordReset w) = wordReset w := by
  cases hempty : w.empty with
  | true => simp [wordReset, hempty]
  | false =>
    calc wordReset (wordReset w) = wordReset _ := congrArg wordReset (wordReset_eq hempty)
      _ = wordReset w := wordReset_writeSlots hempty 0 1 2 0 0 0

/-! ### What the frame decoder costs and changes (R241 to R251) -/

/-- The frame decoder's trees are sound. -/
def FrameState.Sound (g : Cfg) (f : FrameState) : Prop := ∀ k, soundTree (g.cap k) (f.wt.get k)

/-- From `f`, where its trees are sound, to `f'`: the trees stay sound, at most `n` bits are read, and the trees change
in slot cells only. -/
def FrameState.Spends (g : Cfg) (n : Nat) (f f' : FrameState) : Prop :=
  f.Sound g → f'.Sound g ∧ f'.cur.pos ≤ f.cur.pos + n ∧ ∀ k, wordReset (f'.wt.get k) = wordReset (f.wt.get k)

section Frame

variable {g : Cfg} {m n : Nat} {f f' f'' : FrameState}

theorem FrameState.Spends.refl (f : FrameState) : Spends g 0 f f := fun hf => ⟨hf, le_rfl, fun _ => rfl⟩

theorem FrameState.Spends.trans (h : Spends g m f f') (h' : Spends g n f' f'') : Spends g (m + n) f f'' := fun hf => by
  obtain ⟨hf', hpos, hreset⟩ := h hf
  obtain ⟨hf'', hpos', hreset'⟩ := h' hf'
  exact ⟨hf'', by omega, fun k => (hreset' k).trans (hreset k)⟩

theorem FrameState.Spends.mono (h : Spends g m f f') (hle : m ≤ n) : Spends g n f f' := fun hf => by
  obtain ⟨hf', hpos, hreset⟩ := h hf
  exact ⟨hf', by omega, hreset⟩

/-- Pixels do not matter here. -/
theorem FrameState.Spends.withSurf (h : Spends g n f f') (surf : Memory Byte) :
    Spends g n f { f' with surf := surf } := h

open FrameState (Spends)

theorem spends_paint {block : FrameState → FrameState} (h : ∀ f, Spends g n f (block f)) (f : FrameState) :
    Spends g n f (paint block f) := h f

theorem spends_repeatBlock {block : FrameState → FrameState} {bits : Nat} (h : ∀ f, Spends g bits f (block f)) :
    ∀ (n : Nat) (f : FrameState), Spends g (n * bits) f (repeatBlock block n f) := by
  intro n
  induction n with
  | zero => exact fun f => (Spends.refl f).mono (Nat.zero_le _)
  | succ n ih =>
    intro f
    have hrest := (h f).trans (ih (block f))
    rwa [Nat.add_comm, ← Nat.succ_mul] at hrest

theorem fullSel_pos_le (sv : SubVer) (c : Cursor) : (fullSel sv c).2.pos ≤ c.pos + 2 := by
  unfold fullSel
  cases sv with
  | v2 => exact Nat.le_add_right _ _
  | v4 =>
    dsimp only
    split_ifs
    · exact Nat.le_succ _
    · exact le_rfl
    · exact le_rfl

section Codes

variable (hcap : ∀ k, g.cap k ≤ m)

include hcap

theorem FrameState.spends_getCode (f : FrameState) (k : TreeId) : Spends g m f (f.getCode k).2 := fun hf => by
  refine ⟨fun l => ?sound, (wordGetCode_pos_le f.cur (hf k)).trans (Nat.add_le_add_left (hcap k) _), fun l => ?reset⟩
  case sound =>
    by_cases hl : l = k
    · subst hl; simpa [getCode] using (soundTree_wordGetCode (hf l) f.cur).1
    · simpa [getCode, hl] using hf l
  case reset =>
    by_cases hl : l = k
    · subst hl; simpa [getCode] using wordReset_wordGetCode (f.wt.get l) f.cur
    · simp [getCode, hl]

open FrameState (spends_getCode)

theorem spends_blockMono (f : FrameState) : Spends g (m + m) f (blockMono g f) :=
  ((spends_getCode hcap f .mclr).trans (spends_getCode hcap _ .mmap)).withSurf _

theorem spends_fullRow0 (f : FrameState) (r : Nat) : Spends g (m + m) f (fullRow0 g f r) :=
  ((spends_getCode hcap f .full).trans (spends_getCode hcap _ .full)).withSurf _

theorem spends_fullHalf1 (f : FrameState) (r : Nat) : Spends g m f (fullHalf1 g f r) :=
  (spends_getCode hcap f .full).withSurf _

theorem spends_fullHalf2 (f : FrameState) (r : Nat) : Spends g (m + m) f (fullHalf2 g f r) :=
  ((spends_getCode hcap f .full).trans (spends_getCode hcap _ .full)).withSurf _

/-- A FULL block reads at most 8 codes, those of mode 0. -/
theorem spends_blockFull (mode : Nat) (f : FrameState) : Spends g (8 * m) f (blockFull g mode f) := by
  unfold blockFull
  split_ifs
  · exact ((spends_fullHalf1 hcap f 0).trans (spends_fullHalf1 hcap _ 2)).mono (by omega)
  · exact ((spends_fullHalf2 hcap f 0).trans (spends_fullHalf2 hcap _ 2)).mono (by omega)
  · exact ((((spends_fullRow0 hcap f 0).trans (spends_fullRow0 hcap _ 1)).trans (spends_fullRow0 hcap _ 2)).trans
      (spends_fullRow0 hcap _ 3)).mono (by omega)

/-- A run after its type code: the selector, and at most 8 codes per block. -/
theorem spends_runMono (runidx : BitVec 6) (f : FrameState) :
    Spends g (2 + clampedRun g runidx f.blk * (8 * m)) f (runMono g runidx f) :=
  (spends_repeatBlock (spends_paint fun f => (spends_blockMono hcap f).mono (n := 8 * m) (by omega)) _ f).mono
    (Nat.le_add_left _ _)

theorem spends_runFull (runidx : BitVec 6) (f : FrameState) :
    Spends g (2 + clampedRun g runidx f.blk * (8 * m)) f (runFull g runidx f) := by
  have hsel : Spends g 2 f { f with cur := (fullSel g.subver f.cur).2 } := fun hf =>
    ⟨hf, fullSel_pos_le _ _, fun _ => rfl⟩
  exact hsel.trans (spends_repeatBlock (spends_paint (spends_blockFull hcap _)) _ _)

omit hcap in
theorem spends_runSkip (runidx : BitVec 6) (f : FrameState) : Spends g 0 f (runSkip g runidx f) :=
  spends_repeatBlock (block := skipBlock) (bits := 0) (fun f => Spends.refl f) _ f

omit hcap in
theorem spends_runFill (runidx : BitVec 6) (col : Byte) (f : FrameState) : Spends g 0 f (runFill g runidx col f) :=
  spends_repeatBlock (bits := 0) (spends_paint fun f => (Spends.refl f).withSurf _) _ f

/-- A block run, by the blocks it passes: it passes at least one, so they pay for its type code and its selector. -/
theorem spends_run {runidx : BitVec 6} (hblk : f.blk < g.nb)
    (honward : FrameState.Onward (clampedRun g runidx f.blk) (f.getCode .typ).2 f')
    (hrun : Spends g (2 + clampedRun g runidx f.blk * (8 * m)) (f.getCode .typ).2 f') :
    Spends g ((f'.blk - f.blk) * (9 * m + 2)) f f' := by
  have hpassed : f'.blk - f.blk = clampedRun g runidx f.blk := by
    rw [honward.blk]; exact Nat.add_sub_cancel_left _ _
  rw [hpassed]
  refine ((spends_getCode hcap f .typ).trans hrun).mono ?_
  have hpos := clampedRun_pos hblk runidx
  generalize clampedRun g runidx f.blk = n at hpos
  calc m + (2 + n * (8 * m)) = 1 * (m + 2) + n * (8 * m) := by ring
    _ ≤ n * (m + 2) + n * (8 * m) := Nat.add_le_add_right (Nat.mul_le_mul_right _ hpos) _
    _ = n * (9 * m + 2) := by ring

theorem spends_blockRun (hblk : f.blk < g.nb) :
    Spends g (((blockRun g f).blk - f.blk) * (9 * m + 2)) f (blockRun g f) := by
  obtain ⟨kind, runidx, color, hcode⟩ := exists_packTypeCode (f.getCode .typ).1
  unfold blockRun
  dsimp only
  rw [hcode]
  rcases kind_cases kind with rfl | rfl | rfl | rfl
  · rw [decodeTypeCode_mono]
    exact spends_run hcap hblk (onward_runMono runidx (f.getCode .typ).2) (spends_runMono hcap runidx _)
  · rw [decodeTypeCode_full]
    exact spends_run hcap hblk (onward_runFull runidx (f.getCode .typ).2) (spends_runFull hcap runidx _)
  · rw [decodeTypeCode_skip]
    exact spends_run hcap hblk (onward_runSkip runidx (f.getCode .typ).2)
      ((spends_runSkip runidx _).mono (Nat.zero_le _))
  · rw [decodeTypeCode_fill]
    exact spends_run hcap hblk (onward_runFill runidx color (f.getCode .typ).2)
      ((spends_runFill runidx color _).mono (Nat.zero_le _))

omit hcap in
theorem blockRun_blk_le (hblk : f.blk < g.nb) : (blockRun g f).blk ≤ g.nb := by
  obtain ⟨runidx, honward⟩ := onward_blockRun g f
  rw [honward.blk]
  exact clampedRun_le hblk runidx

/-- The loop, by the blocks that are left. -/
theorem spends_frameLoop : ∀ (n : Nat) (f : FrameState),
    Spends g ((g.nb - f.blk) * (9 * m + 2)) f (frameLoop g n f) := by
  intro n
  induction n with
  | zero => exact fun f => (Spends.refl f).mono (Nat.zero_le _)
  | succ n ih =>
    intro f
    rw [frameLoop]
    split
    · next hblk =>
      have hrun := (spends_blockRun hcap hblk).trans (ih (blockRun g f))
      have hblocks : (blockRun g f).blk - f.blk + (g.nb - (blockRun g f).blk) = g.nb - f.blk := by
        have hlt := blockRun_blk_lt hblk
        have hle := blockRun_blk_le hblk
        omega
      rwa [← Nat.add_mul, hblocks] at hrun
    · exact (Spends.refl f).mono (Nat.zero_le _)

end Codes

/-- A command's cursor inside its buffer has OVR clear. -/
theorem Cursor.reaches.inside {buf : List Byte} {c : Cursor} (h : (Cursor.over buf).reaches c)
    (hpos : c.pos ≤ 8 * buf.length) : c.ovr = false := by
  rcases h with rfl | ⟨n, rfl⟩
  · rfl
  · exact Cursor.over_skip_ovr (by simpa [Cursor.over] using hpos)

/-- A frame whose buffer is long enough for any code is decoded, and changes the trees in their slot cells only. -/
theorem decodeFrame_of_long {wt : Trees} (surf : Memory Byte) {vid : List Byte}
    (hsound : ∀ k, soundTree (g.cap k) (wt.get k)) (hcap : ∀ k, g.cap k ≤ m)
    (hlen : g.nb * (9 * m + 2) ≤ 8 * vid.length) :
    ∃ f, decodeFrame g wt surf vid = .ok f ∧ ∀ k, wordReset (f.wt.get k) = wordReset (wt.get k) := by
  have hstart : (frameStart wt surf vid).Sound g := fun k => by
    rw [frameStart, Trees.get_map]; exact (soundTree_wordReset (hsound k)).1
  obtain ⟨_, hpos, hreset⟩ := spends_frameLoop hcap g.nb (frameStart wt surf vid) hstart
  have hinside : (frameLoop g g.nb (frameStart wt surf vid)).cur.pos ≤ 8 * vid.length := by
    refine hpos.trans (le_trans ?_ hlen)
    simp [frameStart, Cursor.over]
  have hovr := (frameLoop_reaches (g := g) g.nb (frameStart wt surf vid)).inside hinside
  refine ⟨_, by rw [decodeFrame, hovr]; rfl, fun k => (hreset k).trans ?_⟩
  rw [frameStart, Trees.get_map, wordReset_wordReset]

end Frame

end Sys2Proof.Machine

namespace Sys2Proof.Proofs

open Sys2Proof.Machine

/-- Settles O39: the invariant makes the trees sound, so every code is shorter than its tree's capacity, and the blocks
pay for the codes. -/
theorem longEnoughFramesComplete : Obligations.LongEnoughFramesComplete := by
  intro vid m s hinv hp hcap hlen
  obtain ⟨f, hf, hreset⟩ := decodeFrame_of_long s.surf (hinv.sound hp) hcap hlen
  refine ⟨_, exec_decodeFrame vid hp, ?_, ?_⟩
  · rw [hf, State.orRaise_ok, hinv.noWork]
    rfl
  · rw [hf]
    exact hreset

end Sys2Proof.Proofs
end

section
/-! PROOFS. Word trees that were built (42_word_tree.md R205) and the word tree rows, each executed on its own:
O26 to O32. -/

namespace Sys2Proof.Machine

/-! ### Where a marker was matched (R202) -/

section Places

variable {m : Half} {t : CodeTree Half} {p : Nat}

/-- A leaf's position counts from that of the first node. -/
theorem CodeTree.places_add {α : Type} (n : Nat) (t : CodeTree α) : ∀ i,
    t.places (n + i) = (t.places i).map fun p => (n + p.1, p.2) := by
  induction t with
  | leaf v => intro i; rfl
  | fork l r ihl ihr => intro i; simp only [places, List.map_append, ← ihl, ← ihr, Nat.add_assoc]

theorem lastPlaceFrom_eq (n : Nat) (m : Half) (t : CodeTree Half) :
    lastPlaceFrom n m t = (lastPlace m t).map (n + ·) := by
  rw [lastPlaceFrom, ← Nat.add_zero n, CodeTree.places_add, List.filter_map, List.getLast?_map, lastPlace]
  simp [Function.comp_def]

/-- A slot after a construction: the marker's last place, counted from the construction's first node, if it has one. -/
theorem growWord_slot (b : WordDraft) (t : CodeTree Half) (code len : Nat) (j : Fin 3) :
    (growWord b t code len).tree.slot.get j =
      match lastPlace (b.tree.mark.get j) t with
      | some p => b.tree.nodes.length + p
      | none => b.tree.slot.get j := by
  rw [growWord, triOf_get, lastPlaceFrom_eq]
  cases lastPlace (b.tree.mark.get j) t <;> rfl

theorem growWord_marked (b : WordDraft) (t : CodeTree Half) (code len : Nat) (j : Fin 3) :
    (growWord b t code len).marked.get j = (b.marked.get j || (lastPlace (b.tree.mark.get j) t).isSome) := by
  rw [growWord, triOf_get, lastPlaceFrom_eq, Option.isSome_map]

theorem CodeTree.map_snd_places {α : Type} (t : CodeTree α) : ∀ i, (t.places i).map Prod.snd = t.labels := by
  induction t with
  | leaf v => intro i; rfl
  | fork l r ihl ihr => intro i; simp [places, labels, ihl, ihr]

theorem lastPlace_eq_none_iff : lastPlace m t = none ↔ m ∉ t.labels := by
  simp only [lastPlace, ← t.map_snd_places 0, Option.map_eq_none_iff, List.getLast?_eq_none_iff,
    List.filter_eq_nil_iff, beq_iff_eq, List.mem_map]
  exact ⟨fun h ⟨q, hq, hm⟩ => h q hq hm, fun h q hq hm => h ⟨q, hq, hm⟩⟩

/-- The place of a marker is a leaf that was composed as the marker. -/
theorem cells_lastPlace (f : Half → Half) (h : lastPlace m t = some p) :
    (t.map f).cells[p]? = some (.leaf (f m)) := by
  obtain ⟨⟨q, v⟩, hlast, rfl⟩ := Option.map_eq_some_iff.1 h
  obtain ⟨hmem, hv⟩ := List.mem_filter.1 (List.mem_of_getLast? hlast)
  obtain rfl : v = m := by simpa using hv
  have hmem' : (q, f v) ∈ (t.map f).places 0 := by
    rw [CodeTree.places_map]
    exact List.mem_map.2 ⟨_, hmem, rfl⟩
  obtain ⟨_, hq, hcell⟩ := CodeTree.cells_of_mem_places hmem'
  rw [Nat.zero_add] at hq
  exact hq ▸ hcell

theorem lastPlace_lt (h : lastPlace m t = some p) : p < t.count := by
  simpa using (List.getElem?_eq_some_iff.1 (cells_lastPlace id h)).1

/-- A marker is stored as 0. -/
theorem unmarked_get (m : Tri Half) (j : Fin 3) : unmarked m (m.get j) = 0 := by
  fin_cases j <;> simp [unmarked, Tri.get]

end Places

/-! ### The slots of a built tree (R202, R203, R205) -/

section Slots

variable {m : Tri Half} {t : CodeTree Half} {i j : Fin 3}

theorem slotsOf_get_of_matched {p : Nat} (h : lastPlace (m.get j) t = some p) : (slotsOf m t).1.get j = p := by
  fin_cases j <;> simp_all [slotsOf, Tri.get]

/-- An unmatched marker's slot is past the coded cells, and no other's is. -/
theorem unmatched_iff_count_le : m.get j ∉ t.labels ↔ t.count ≤ (slotsOf m t).1.get j := by
  rw [← lastPlace_eq_none_iff]
  cases h : lastPlace (m.get j) t with
  | none =>
    rcases slotsOf_get m t j with hplace | ⟨hge, _⟩
    · rw [h] at hplace; cases hplace
    · exact iff_of_true rfl hge
  | some p =>
    have hlt := lastPlace_lt h
    exact iff_of_false nofun (by rw [slotsOf_get_of_matched h]; omega)

/-- The unmatched markers take their cells in rising order. -/
theorem slotsOf_get_lt (hij : i < j) (hi : lastPlace (m.get i) t = none) (hj : lastPlace (m.get j) t = none) :
    (slotsOf m t).1.get i < (slotsOf m t).1.get j := by
  have hpairs : i = 0 ∧ j = 1 ∨ i = 0 ∧ j = 2 ∨ i = 1 ∧ j = 2 := by omega
  rcases hpairs with ⟨rfl, rfl⟩ | ⟨rfl, rfl⟩ | ⟨rfl, rfl⟩ <;> simp only [Tri.get] at hi hj
  · simp [slotsOf, Tri.get, hi, hj]
  · simp only [slotsOf, Tri.get, hi, hj, Option.isSome_none, Option.getD_none]
    split <;> simp
  · simp [slotsOf, Tri.get, hi, hj]

/-- An unmatched marker has its cell to itself. -/
theorem slotsOf_get_ne (hne : i ≠ j) (hi : t.count ≤ (slotsOf m t).1.get i) :
    (slotsOf m t).1.get i ≠ (slotsOf m t).1.get j := by
  intro heq
  have hnone : ∀ {l}, t.count ≤ (slotsOf m t).1.get l → lastPlace (m.get l) t = none :=
    fun h => lastPlace_eq_none_iff.2 (unmatched_iff_count_le.2 h)
  rcases lt_or_gt_of_ne hne with hlt | hgt
  · exact (slotsOf_get_lt hlt (hnone hi) (hnone (heq ▸ hi))).ne heq
  · exact (slotsOf_get_lt hgt (hnone (heq ▸ hi)) (hnone hi)).ne heq.symm

/-- One cell for each unmatched marker. -/
theorem slotsOf_total (m : Tri Half) (t : CodeTree Half) :
    (slotsOf m t).2 = t.count + ((List.finRange 3).filter fun j => decide (m.get j ∉ t.labels)).length := by
  simp only [← lastPlace_eq_none_iff, slotsOf, show List.finRange 3 = [0, 1, 2] from rfl, Tri.get, List.filter]
  cases lastPlace m.j0 t <;> cases lastPlace m.j1 t <;> cases lastPlace m.j2 t <;> simp

/-- Every slot of a built tree holds 0. -/
theorem builtTree_slot (flag : Bool) (m : Tri Half) (t : CodeTree Half) (j : Fin 3) :
    (builtTree flag m t).nodes[(builtTree flag m t).slot.get j]? = some (.leaf 0) := by
  have hnodes : (builtTree flag m t).nodes =
      (t.map (unmarked m)).cells ++ List.replicate ((slotsOf m t).2 - t.count) (.leaf 0) := rfl
  have hslot : (builtTree flag m t).slot = (slotsOf m t).1 := rfl
  rw [hnodes, hslot]
  rcases slotsOf_get m t j with hplace | ⟨hge, hlt⟩
  · have hcell := cells_lastPlace (unmarked m) hplace
    rw [unmarked_get] at hcell
    exact (List.getElem?_append_left (List.getElem?_eq_some_iff.1 hcell).1).trans hcell
  · rw [List.getElem?_append_right (by simpa using hge)]
    simp only [CodeTree.cells_length, CodeTree.count_map, List.getElem?_replicate]
    exact if_pos (by omega)

end Slots

/-- A tree that was built and is not empty is that of some markers and some composed values, inside the capacity. -/
theorem exists_values_of_built {cap : Nat} {w w' : WordTree} {c c' : Cursor}
    (h : buildWordTree cap w c = .ok (w', c')) (hempty : w'.empty = false) :
    ∃ m t, w' = builtTree w.built m t ∧ (slotsOf m t).2 ≤ cap := by
  cases hbit : c.bit c.pos with
  | false => rw [buildWordTree_absent hbit] at h; cases h; cases hempty
  | true => exact wordPresent_ok (buildWordTree_present hbit ▸ h)

/-! ### A code, the MRU slots and the reset (R206 to R210) -/

theorem nodeAt_of_getElem? {w p : Nat} {nodes : List (Node w)} {cell : Node w} (h : nodes[p]? = some cell) :
    nodeAt nodes p = cell := by
  rw [nodeAt, List.getD_eq_getElem?_getD, h]; rfl

/-- The three writes, each with the value that the writes before it left to read. -/
theorem mruUpdate_of_slots {slot : Tri Nat} {a : Tri Half} {nodes : List (Node 16)} (v : Half)
    (hslots : ∀ j, nodes[slot.get j]? = some (.leaf (a.get j))) :
    mruUpdate slot v nodes =
      if v = a.j0 then nodes
      else
        ((nodes.set slot.j2 (.leaf a.j1)).set slot.j1 (.leaf (if slot.j0 = slot.j2 then a.j1 else a.j0))).set slot.j0
          (.leaf v) := by
  have h0 : nodes[slot.j0]? = some (.leaf a.j0) := hslots 0
  have h1 : nodeAt nodes slot.j1 = .leaf a.j1 := nodeAt_of_getElem? (hslots 1)
  have hshifted : nodeAt (nodes.set slot.j2 (.leaf a.j1)) slot.j0 =
      .leaf (if slot.j0 = slot.j2 then a.j1 else a.j0) := by
    apply nodeAt_of_getElem?
    by_cases hsame : slot.j0 = slot.j2
    · rw [if_pos hsame, ← hsame]
      exact List.getElem?_set_self (List.getElem?_eq_some_iff.1 h0).1
    · rw [if_neg hsame, List.getElem?_set_ne (Ne.symm hsame), h0]
  simp only [mruUpdate, nodeAt_of_getElem? h0, h1, hshifted, leafValue]

theorem wordGetCode_empty {w : WordTree} (c : Cursor) (h : w.empty = true) : wordGetCode w c = (0, w, c) := if_pos h

theorem wordReset_empty {w : WordTree} (h : w.empty = true) : wordReset w = w := if_pos h

/-- A code of a tree that is not empty: a value, the MRU update with it, and a cursor. -/
theorem wordGetCode_nonempty {w : WordTree} (c : Cursor) (h : w.empty = false) :
    wordGetCode w c =
      (leafValue (nodeAt w.nodes (lookup w.nodes w.pfx c).1),
        { w with nodes := mruUpdate w.slot (leafValue (nodeAt w.nodes (lookup w.nodes w.pfx c).1)) w.nodes },
        (lookup w.nodes w.pfx c).2) := by
  have hfalse : ¬ w.empty = true := by simp [h]
  rw [wordGetCode, if_neg hfalse]

/-- The code the stream shows gives its leaf's value and is consumed. -/
theorem wordGetCode_of_find {w : WordTree} {shape : CodeTree Half} {extra : List Half} {bs : List Bool} {v : Half}
    {c : Cursor} (hempty : w.empty = false) (hnodes : w.nodes = shape.cells ++ extra.map Node.leaf)
    (hpfx : w.pfx = shape.table) (hfind : shape.find bs = some v) (hs : c.shows c.pos (fixed bs)) :
    wordGetCode w c = (v, { w with nodes := mruUpdate w.slot v w.nodes }, c.skip bs.length) := by
  have hlookup : lookup w.nodes w.pfx c = (shape.place bs, c.skip bs.length) := by
    rw [hnodes, hpfx]
    exact lookup_of_find _ hfind hs
  have hleaf : nodeAt w.nodes (shape.place bs) = .leaf v := by
    have hplace := CodeTree.cells_place hfind
    apply nodeAt_of_getElem?
    rw [hnodes, List.getElem?_append_left (List.getElem?_eq_some_iff.1 hplace).1, hplace]
  rw [wordGetCode_nonempty c hempty, hlookup]
  simp only [hleaf, leafValue]

/-- The cells after a reset. -/
theorem wordReset_getElem? {w : WordTree} (hempty : w.empty = false) (hslots : ∀ j, w.slot.get j < w.nodes.length)
    (p : Nat) :
    (wordReset w).nodes[p]? =
      if p = w.slot.j0 ∨ p = w.slot.j1 ∨ p = w.slot.j2 then some (.leaf 0) else w.nodes[p]? := by
  have h0 : w.slot.j0 < w.nodes.length := hslots 0
  have h1 : w.slot.j1 < w.nodes.length := hslots 1
  have h2 : w.slot.j2 < w.nodes.length := hslots 2
  simp only [wordReset_eq hempty, writeSlot, Tri.get, List.getElem?_set, List.length_set, h0, h1, h2, if_true]
  grind

/-! ### The rows (log 11) -/

/-- A tree put back where it was. -/
theorem Trees.set_get (t : Trees) (k : TreeId) : t.set k (t.get k) = t := by cases k <;> rfl

section Rows

variable {s : State} (k : TreeId)

theorem exec_wordBuild_of_ok {r : WordTree × Cursor}
    (h : buildWordTree (s.cfg.cap k) (s.wt.get k) s.work.cur = .ok r) :
    exec (.wordBuild k) s = .next (s.withWordTree k r.1 r.2) := by
  change execWordBuild k s = _
  rw [execWordBuild, h, State.orRaise_ok]

theorem exec_wtPresent_of_ok {r : WordTree × Cursor}
    (h : wordPresent (s.cfg.cap k) (clearWordTree (s.wt.get k)) (s.work.cur.skip 1) = .ok r) :
    exec (.wtPresent k) s = .next (s.withWordTree k r.1 r.2) := by
  change execWtPresent k s = _
  rw [execWtPresent, h, State.orRaise_ok]

/-- The row that the first bit of a node selects. -/
def wnodeRow (k : TreeId) : CodeTree (List Bool × List Bool) → Instr
  | .leaf _ => .wnodeLeaf k
  | .fork _ _ => .wnodeInternal k

/-- It builds the node at the position the working state holds. -/
theorem exec_wnodeRow (t : CodeTree (List Bool × List Bool)) (hs : s.work.cur.shows s.work.cur.pos (wordNodeBits t)) :
    exec (wnodeRow k t) s =
      .next (s.orRaise
        (wordNode (s.cfg.cap k) s.work.lo s.work.hi (s.cfg.cap k + 1) { tree := s.wt.get k, marked := s.work.marked }
          s.work.cur s.work.codePfx s.work.codeLen)
        (s.withWordNode k)) := by
  cases t with
  | leaf p =>
    obtain ⟨hbit, _⟩ := (Cursor.shows_cons _ _ _ _).1 hs
    rw [wordNode_leaf _ _ _ _ hbit]
    rfl
  | fork l r =>
    obtain ⟨hbit, _⟩ := (Cursor.shows_cons _ _ _ _).1 hs
    rw [wordNode_internal _ _ _ _ hbit]
    rfl

theorem exec_wordGetcode :
    exec (.wordGetcode k) s = .next (s.withWordCode k (wordGetCode (s.wt.get k) s.work.cur)) := rfl

theorem exec_wordReset :
    exec (.wordReset k) s = .next { s with wt := s.wt.set k (wordReset (s.wt.get k)) } := rfl

end Rows

end Sys2Proof.Machine

namespace Sys2Proof.Proofs

open Sys2Proof.Machine

/-- Settles O26: the bit 0 ends the construction, and an empty tree is asked for no bit and has no slot to reset. -/
theorem emptyWordTree : Obligations.EmptyWordTree := by
  refine fun k s => ⟨⟨rfl, fun hbit => ?build⟩, fun hempty => ⟨?code, ?reset⟩⟩
  case build => exact exec_wordBuild_of_ok k (buildWordTree_absent hbit)
  case code =>
    rw [exec_wordGetcode, wordGetCode_empty _ hempty, State.withWordCode, Trees.set_get]
  case reset => rw [exec_wordReset, wordReset_empty hempty, Trees.set_get]

/-- Settles O27: WORD_BUILD is WT_PRESENT after the bit 1, and the construction reads what the stream shows. -/
theorem wordBuildReadsTheTree : Obligations.WordBuildReadsTheTree := by
  intro k d s hfits hs
  have hbuild := buildWordTree_of_fits (d := some d) (w := s.wt.get k) hfits hs
  have hpresent := buildWordTree_present (cap := s.cfg.cap k) (w := s.wt.get k) ((Cursor.shows_cons _ _ _ _).1 hs).1
  exact ⟨exec_wordBuild_of_ok k hbuild, exec_wtPresent_of_ok k (hpresent.symm.trans hbuild)⟩

/-- Settles O28: the row is the node construction at its position, with all levels of the capacity left below it. -/
theorem wordNodeReadsTheSubtree : Obligations.WordNodeReadsTheSubtree := by
  intro k d s hlegal hlo hhi hmark hfit hcode hs
  obtain ⟨_, _, hlabels⟩ := hlegal
  have hnode := wordNode_of_shows d.tree (cap := s.cfg.cap k) (fuel := s.cfg.cap k + 1)
    (b := { tree := s.wt.get k, marked := s.work.marked }) hlabels hcode (by dsimp only; omega) hs
  rw [if_pos hfit, ← hlo, ← hhi] at hnode
  refine ⟨_, (exec_wnodeRow k d.tree hs).trans (congrArg _ (by rw [hnode, State.orRaise_ok])), ?_⟩
  simp only [State.withWordNode_wt, State.withWordNode_work, Trees.get_set_same]
  exact ⟨congrArg (fun m => _ ++ (d.values.map (unmarked m)).cells) hmark, rfl, hmark ▸ growWord_slot _ _ _ _,
    hmark ▸ growWord_marked _ _ _ _, hmark, rfl, rfl, rfl⟩

/-- Settles O29: what was built is the tree of its markers and composed values. -/
theorem wordTreeStructure : Obligations.WordTreeStructure := by
  intro cap w w' c c' hbuilt hempty
  obtain ⟨m, t, rfl, hfit⟩ := exists_values_of_built hbuilt hempty
  have hslots := builtTree_slot w.built m t
  have hlen := builtTree_length w.built m t
  have htotal := slotsOf_total m t
  refine ⟨fun j => ⟨(List.getElem?_eq_some_iff.1 (hslots j)).1, hslots j⟩, t, ?_⟩
  dsimp only
  rw [← t.count_eq_labels]
  refine ⟨List.length_filter_le _ _, ?nodes, hlen.trans htotal, rfl, hlen.trans_le hfit,
    fun j => unmatched_iff_count_le, fun i j => slotsOf_get_ne⟩
  case nodes => simp only [builtTree, htotal, Nat.add_sub_cancel_left]

/-- Settles O30: the code leads to its leaf, and the three writes read the slots in order. -/
theorem wordGetcodeEffect : Obligations.WordGetcodeEffect := by
  intro k shape extra a bs v s hempty hnodes hpfx hslots hfind hs _
  rw [exec_wordGetcode, wordGetCode_of_find hempty hnodes hpfx hfind hs, mruUpdate_of_slots v hslots]
  rfl

/-- Settles O31: where the slots are three cells, each write of the update touches its own. -/
theorem mruStability : Obligations.MruStability := by
  intro k a s t hempty hslots ht
  rw [exec_wordGetcode, wordGetCode_nonempty _ hempty, mruUpdate_of_slots _ hslots] at ht
  generalize leafValue _ = v at ht
  cases ht
  simp only [State.withWordCode_wt, State.withWordCode_work, Trees.get_set_same]
  refine ⟨trivial, fun hv => if_pos hv, fun hv h01 h02 h12 => ?_⟩
  have hlt : ∀ j, (s.wt.get k).slot.get j < (s.wt.get k).nodes.length :=
    fun j => (List.getElem?_eq_some_iff.1 (hslots j)).1
  have h0 : (s.wt.get k).slot.j0 < (s.wt.get k).nodes.length := hlt 0
  have h1 : (s.wt.get k).slot.j1 < (s.wt.get k).nodes.length := hlt 1
  have h2 : (s.wt.get k).slot.j2 < (s.wt.get k).nodes.length := hlt 2
  rw [if_neg hv, if_neg h02]
  refine ⟨List.getElem?_set_self (by simpa using h0), ?_, ?_⟩
  · rw [List.getElem?_set_ne h01, List.getElem?_set_self (by simpa using h1)]
  · rw [List.getElem?_set_ne h02, List.getElem?_set_ne h12, List.getElem?_set_self h2]

/-- Settles O32: a reset is a write of 0 to the cell of each slot. -/
theorem wordResetEffect : Obligations.WordResetEffect := by
  intro k s hempty hslots
  refine ⟨_, exec_wordReset k, ?_⟩
  simp only [Trees.get_set_same]
  refine ⟨?_, ?_, wordReset_getElem? hempty hslots⟩
  · rw [wordReset_eq hempty]; rfl
  · rw [wordReset_eq hempty]; simp [writeSlot]

end Sys2Proof.Proofs
end

section
/-! PROOFS. What of the word trees outlives a frame (43_frame_decoder.md R241, R257, 42_word_tree.md R209, R212):
O43. -/

namespace Sys2Proof.Machine

/-! ### What a code keeps of the trees, a frame keeps (R241 to R251) -/

section Keeps

variable {g : Cfg} {P : Trees → Prop}

/-- The frame decoder's operation keeps the property `P` of the trees. -/
def KeepsTrees (P : Trees → Prop) (op : FrameState → FrameState) : Prop := ∀ f, P f.wt → P (op f).wt

/-- Pixels, DIRTY and the block count are not the trees'. -/
theorem KeepsTrees.paint {block : FrameState → FrameState} (h : KeepsTrees P block) : KeepsTrees P (paint block) := h

theorem keepsTrees_blockFill (col : Byte) : KeepsTrees P (blockFill g col) := fun _ hf => hf

theorem keepsTrees_skipBlock : KeepsTrees P skipBlock := fun _ hf => hf

theorem KeepsTrees.repeat {block : FrameState → FrameState} (h : KeepsTrees P block) :
    ∀ n, KeepsTrees P (repeatBlock block n) := by
  intro n
  induction n with
  | zero => exact fun _ hf => hf
  | succ n ih => exact fun f hf => ih (block f) (h f hf)

variable (hcode : ∀ k, KeepsTrees P fun f => (f.getCode k).2)

include hcode

theorem keepsTrees_blockMono : KeepsTrees P (blockMono g) := fun f hf => hcode .mmap _ (hcode .mclr f hf)

/-- The blocks of every FULL mode are made of codes of the FULL tree. -/
theorem keepsTrees_blockFull (mode : Nat) : KeepsTrees P (blockFull g mode) := by
  have row0 : ∀ r, KeepsTrees P fun f => fullRow0 g f r := fun _ f hf => hcode .full _ (hcode .full f hf)
  have half1 : ∀ r, KeepsTrees P fun f => fullHalf1 g f r := fun _ f hf => hcode .full f hf
  have half2 : ∀ r, KeepsTrees P fun f => fullHalf2 g f r := fun _ f hf => hcode .full _ (hcode .full f hf)
  intro f hf
  unfold blockFull
  split_ifs
  · exact half1 2 _ (half1 0 f hf)
  · exact half2 2 _ (half2 0 f hf)
  · exact row0 3 _ (row0 2 _ (row0 1 _ (row0 0 f hf)))

theorem keepsTrees_blockRun : KeepsTrees P (blockRun g) := by
  intro f hf
  have htype := hcode .typ f hf
  obtain ⟨kind, runidx, color, hkind⟩ := exists_packTypeCode (f.getCode .typ).1
  unfold blockRun
  dsimp only
  rw [hkind]
  rcases kind_cases kind with rfl | rfl | rfl | rfl
  · rw [decodeTypeCode_mono]; exact (keepsTrees_blockMono hcode).paint.repeat _ _ htype
  · rw [decodeTypeCode_full]; exact (keepsTrees_blockFull hcode _).paint.repeat _ _ htype
  · rw [decodeTypeCode_skip]; exact keepsTrees_skipBlock.repeat _ _ htype
  · rw [decodeTypeCode_fill]; exact (keepsTrees_blockFill color).paint.repeat _ _ htype

theorem keepsTrees_frameLoop : ∀ n, KeepsTrees P (frameLoop g n) := by
  intro n
  induction n with
  | zero => exact fun _ hf => hf
  | succ n ih =>
    intro f hf
    rw [frameLoop]
    split
    · exact ih _ (keepsTrees_blockRun hcode f hf)
    · exact hf

end Keeps

/-! ### A frame is forgotten by the next frame's reset (R209, R212) -/

/-- The trees of a frame start: every MRU slot reset. -/
def resetTrees (wt : Trees) : Trees := wt.map fun _ w => wordReset w

theorem resetTrees_get (wt : Trees) (k : TreeId) : (resetTrees wt).get k = wordReset (wt.get k) := Trees.get_map _ _ _

theorem resetTrees_resetTrees (wt : Trees) : resetTrees (resetTrees wt) = resetTrees wt :=
  Trees.ext_get fun k => by simp only [resetTrees_get, wordReset_wordReset]

/-- A code changes its tree in slot cells only. -/
theorem resetTrees_getCode (k : TreeId) (f : FrameState) : resetTrees (f.getCode k).2.wt = resetTrees f.wt := by
  have hwt : (f.getCode k).2.wt = f.wt.set k (wordGetCode (f.wt.get k) f.cur).2.1 := rfl
  refine Trees.ext_get fun l => ?_
  rw [resetTrees_get, resetTrees_get, hwt]
  by_cases hl : l = k
  · subst hl; rw [Trees.get_set_same, wordReset_wordGetCode]
  · rw [Trees.get_set_other _ _ hl]

/-- What a frame made of the trees is gone after a reset, whatever the trees and the stream are. -/
theorem resetTrees_decodeFrame {g : Cfg} {wt : Trees} {surf : Memory Byte} {vid : List Byte} {f : FrameState}
    (h : decodeFrame g wt surf vid = .ok f) : resetTrees f.wt = resetTrees wt := by
  have hcode : ∀ k, KeepsTrees (fun wt' => resetTrees wt' = resetTrees wt) fun f => (f.getCode k).2 :=
    fun k f hf => (resetTrees_getCode k f).trans hf
  dsimp only [decodeFrame] at h
  split at h
  · cases h
  · cases h
    exact keepsTrees_frameLoop hcode g.nb _ (resetTrees_resetTrees wt)

/-- A frame depends on the trees only by what a reset leaves of them. -/
theorem decodeFrame_congr (g : Cfg) {wt wt' : Trees} (h : resetTrees wt' = resetTrees wt) (surf : Memory Byte)
    (vid : List Byte) : decodeFrame g wt' surf vid = decodeFrame g wt surf vid := by
  have hstart : frameStart wt' surf vid = frameStart wt surf vid :=
    congrArg (fun wt => { wt := wt, cur := Cursor.over vid, surf := surf, dirty := [], blk := 0 : FrameState }) h
  rw [decodeFrame, decodeFrame, hstart]

end Sys2Proof.Machine

namespace Sys2Proof.Proofs

open Sys2Proof.Machine

/-- Settles O43: the frame before changed its trees in slot cells only, and a frame starts by resetting those. -/
theorem framesForgetEarlierFrames : Obligations.FramesForgetEarlierFrames := by
  intro vid vid' surf s t hp ht hok
  rw [exec_decodeFrame vid hp] at ht
  cases hframe : decodeFrame s.cfg s.wt s.surf vid with
  | ok f =>
    rw [hframe] at ht
    cases ht
    exact decodeFrame_congr s.cfg (resetTrees_decodeFrame hframe) surf vid'
  | error cause =>
    rw [hframe] at ht
    cases ht
    have hfatal := decodeFrame_error hframe
    have hcode : cause.code = .ok := by rwa [State.orRaise_error, State.raise_status] at hok
    rw [hcode] at hfatal
    cases hfatal

end Sys2Proof.Proofs
end

section
/-! PROOFS. Block runs executed on their own (43_frame_decoder.md R241, R244, R247, R251, R252), what every
block that is written is (R245, R253), and the pixels of the FULL blocks (R248 to R250): O34, O35, O36, O38. -/

namespace Sys2Proof.Machine

/-! ### Runs (R241, R244) -/

theorem repeatBlock_eq_iterate (block : FrameState → FrameState) : ∀ (n : Nat) (f : FrameState),
    repeatBlock block n f = block^[n] f
  | 0, _ => rfl
  | n + 1, f => repeatBlock_eq_iterate block n (block f)

/-- A SKIP run only moves blk (R251). -/
theorem runSkip_eq (g : Cfg) (runidx : BitVec 6) (f : FrameState) :
    runSkip g runidx f = { f with blk := f.blk + clampedRun g runidx f.blk } := by
  have hskip : ∀ n, skipBlock^[n] f = { f with blk := f.blk + n } := by
    intro n
    induction n with
    | zero => rfl
    | succ n ih => rw [Function.iterate_succ_apply', ih]; rfl
  rw [runSkip, repeatBlock_eq_iterate, hskip]

theorem runMono_eq (g : Cfg) (runidx : BitVec 6) (f : FrameState) :
    runMono g runidx f = (paint (blockMono g))^[clampedRun g runidx f.blk] f := repeatBlock_eq_iterate _ _ _

theorem runFill_eq (g : Cfg) (runidx : BitVec 6) (col : Byte) (f : FrameState) :
    runFill g runidx col f = (paint (blockFill g col))^[clampedRun g runidx f.blk] f := repeatBlock_eq_iterate _ _ _

theorem fullBlocks_eq (g : Cfg) (mode n : Nat) (f : FrameState) :
    fullBlocks g mode n f = (paint (blockFull g mode))^[n] f := repeatBlock_eq_iterate _ _ _

@[simp] theorem blockFull_zero (g : Cfg) : blockFull g 0 = blockFull0 g := rfl
@[simp] theorem blockFull_one (g : Cfg) : blockFull g 1 = blockFull1 g := rfl
@[simp] theorem blockFull_two (g : Cfg) : blockFull g 2 = blockFull2 g := rfl

/-! ### The selector (R247) -/

section Selector

variable {sv : SubVer} {c : Cursor}

theorem fullSel_v2 (hsv : sv = .v2) : fullSel sv c = (0, c) := by rw [hsv]; rfl

theorem fullSel_v4_one (hsv : sv = .v4) (h : c.bit c.pos = true) : fullSel sv c = (1, c.skip 1) := by
  simp [hsv, fullSel, h]

theorem fullSel_v4_zero_one (hsv : sv = .v4) (h : c.bit c.pos = false) (h' : c.bit (c.pos + 1) = true) :
    fullSel sv c = (2, c.skip 2) := by
  simp [hsv, fullSel, h, h', Cursor.skip_skip]

theorem fullSel_v4_zero_zero (hsv : sv = .v4) (h : c.bit c.pos = false) (h' : c.bit (c.pos + 1) = false) :
    fullSel sv c = (0, c.skip 2) := by
  simp [hsv, fullSel, h, h', Cursor.skip_skip]

end Selector

/-- A FULL run, by what its selector gives. -/
theorem runFull_of_sel {g : Cfg} {f : FrameState} {mode : Nat} {c : Cursor} (runidx : BitVec 6)
    (h : fullSel g.subver f.cur = (mode, c)) :
    runFull g runidx f = (paint (blockFull g mode))^[clampedRun g runidx f.blk] { f with cur := c } := by
  rw [runFull, h, ← fullBlocks_eq]

/-! ### The rows executed on their own (log 11) -/

section Rows

variable (runidx : BitVec 6) (color : Byte) (s : State)

theorem exec_blkMono : exec (.blkMono runidx color) s =
    .next (s.withFrame (runMono s.cfg runidx s.frame) 0 s.work.mode) := rfl

theorem exec_blkSkip : exec (.blkSkip runidx color) s =
    .next (s.withFrame (runSkip s.cfg runidx s.frame) 0 s.work.mode) := rfl

theorem exec_blkFill : exec (.blkFill runidx color) s =
    .next (s.withFrame (runFill s.cfg runidx color s.frame) 0 s.work.mode) := rfl

theorem exec_blkFull_of_sel {s : State} {mode : Nat} {c : Cursor} (h : fullSel s.cfg.subver s.work.cur = (mode, c)) :
    exec (.blkFull runidx color) s =
      .next (s.withFrame ((paint (blockFull s.cfg mode))^[clampedRun s.cfg runidx s.work.blk]
        { s.frame with cur := c }) 0 mode) := by
  change execBlkFull runidx s = _
  rw [execBlkFull, runFull_of_sel runidx (show fullSel s.cfg.subver s.frame.cur = (mode, c) from h), h]
  rfl

/-- The blocks left in a FULL run. -/
theorem fullRun_eq (mode : Nat) (c : Cursor) : s.fullRun mode c =
    s.withFrame ((paint (blockFull s.cfg mode))^[min s.work.run (s.cfg.nb - s.work.blk)]
      { s.frame with cur := c }) 0 mode := by
  rw [← fullBlocks_eq]
  rfl

end Rows

/-! ### What a block that is written is (R245, R253) -/

/-- A block reads its codes and then writes its rows: the codes and the rows do not depend on the surface. -/
def WritesBlock (g : Cfg) (block : FrameState → FrameState) : Prop :=
  ∀ f : FrameState, ∃ (rows : Nat → Row) (wt : Trees) (cur : Cursor), ∀ surf : Memory Byte,
    block { f with surf := surf } = { f with wt := wt, cur := cur, surf := putBlock g f.blk rows surf }

section Writes

variable {g : Cfg} {block : FrameState → FrameState}

/-- A painted block: the same rows and codes on every surface, its DIRTY bit, and blk one further. -/
theorem WritesBlock.paint (h : WritesBlock g block) (f : FrameState) :
    ∃ (rows : Nat → Row) (wt : Trees) (cur : Cursor), ∀ surf : Memory Byte, paint block { f with surf := surf } =
      { wt := wt, cur := cur, surf := putBlock g f.blk rows surf, dirty := markDirty f.blk f.dirty
        blk := f.blk + 1 } := by
  obtain ⟨rows, wt, cur, hblock⟩ := h f
  exact ⟨rows, wt, cur, fun surf => by rw [Machine.paint, hblock]⟩

theorem WritesBlock.paint_blk (h : WritesBlock g block) (f : FrameState) :
    (Machine.paint block f).blk = f.blk + 1 := by
  obtain ⟨_, _, _, hpaint⟩ := h.paint f
  exact congrArg FrameState.blk (hpaint f.surf)

theorem WritesBlock.iterate_blk (h : WritesBlock g block) (n : Nat) (f : FrameState) :
    ((Machine.paint block)^[n] f).blk = f.blk + n := by
  induction n with
  | zero => rfl
  | succ n ih => rw [Function.iterate_succ_apply', h.paint_blk, ih, Nat.add_assoc]

end Writes

theorem writesBlock_blockMono (g : Cfg) : WritesBlock g (blockMono g) := fun f =>
  let c := f.getCode .mclr
  let m := c.2.getCode .mmap
  ⟨monoRow c.1 m.1, m.2.wt, m.2.cur, fun _ => rfl⟩

theorem writesBlock_blockFill (g : Cfg) (col : Byte) : WritesBlock g (blockFill g col) := fun f =>
  ⟨fun _ => { p0 := col, p1 := col, p2 := col, p3 := col }, f.wt, f.cur, fun _ => rfl⟩

/-! ### The FULL blocks (R248 to R250) -/

section Full

variable (g : Cfg) (f : FrameState)

/-- The frame decoder's state after `n` codes of the FULL tree. -/
def afterFull (n : Nat) : FrameState := (fun h : FrameState => (h.getCode .full).2)^[n] f

/-- The FULL tree's code `n` from here. -/
def fullCode (n : Nat) : Half := ((afterFull f n).getCode .full).1

/-- The same state inside a FULL block: `n` codes are read, and the surface is `surf`. -/
def inFull (n : Nat) (surf : Memory Byte) : FrameState :=
  { f with wt := (afterFull f n).wt, cur := (afterFull f n).cur, surf := surf }

theorem inFull_zero (surf : Memory Byte) : inFull f 0 surf = { f with surf := surf } := rfl

/-- Inside a block the next code is the next of the tree's codes, whatever is on the surface. -/
theorem getCode_inFull (n : Nat) (surf : Memory Byte) :
    (inFull f n surf).getCode .full = (fullCode f n, inFull f (n + 1) surf) := by
  have hsucc : afterFull f (n + 1) = ((afterFull f n).getCode .full).2 := Function.iterate_succ_apply' _ _ _
  rw [inFull.eq_def f (n + 1), hsucc]
  rfl

theorem fullRow0_inFull (n r : Nat) (surf : Memory Byte) : fullRow0 g (inFull f n surf) r =
    inFull f (n + 2) (putRow g f.blk r (pairRow (fullCode f (n + 1)) (fullCode f n)) surf) := by
  simp only [fullRow0, getCode_inFull]
  rfl

theorem fullHalf1_inFull (n r : Nat) (surf : Memory Byte) : fullHalf1 g (inFull f n surf) r =
    inFull f (n + 1) (putRow g f.blk (r + 1) (wideRow (fullCode f n))
      (putRow g f.blk r (wideRow (fullCode f n)) surf)) := by
  simp only [fullHalf1, getCode_inFull]
  rfl

theorem fullHalf2_inFull (n r : Nat) (surf : Memory Byte) : fullHalf2 g (inFull f n surf) r =
    inFull f (n + 2) (putRow g f.blk (r + 1) (pairRow (fullCode f (n + 1)) (fullCode f n))
      (putRow g f.blk r (pairRow (fullCode f (n + 1)) (fullCode f n)) surf)) := by
  simp only [fullHalf2, getCode_inFull]
  rfl

/-- Row `r` of mode 0: its first code is the right half, its second the left (R248). -/
def rowOfMode0 (r : Nat) : Row := pairRow (fullCode f (2 * r + 1)) (fullCode f (2 * r))

/-- Row `r` of mode 1: one code for two rows (R249). -/
def rowOfMode1 (r : Nat) : Row := wideRow (fullCode f (r / 2))

/-- Row `r` of mode 2: two codes for two rows (R250). -/
def rowOfMode2 (r : Nat) : Row := pairRow (fullCode f (r / 2 * 2 + 1)) (fullCode f (r / 2 * 2))

variable (surf : Memory Byte)

theorem blockFull0_eq : blockFull0 g { f with surf := surf } =
    inFull f 8 (putBlock g f.blk (rowOfMode0 f) surf) := by
  rw [← inFull_zero, blockFull0]
  simp only [fullRow0_inFull]
  rfl

theorem blockFull1_eq : blockFull1 g { f with surf := surf } =
    inFull f 2 (putBlock g f.blk (rowOfMode1 f) surf) := by
  rw [← inFull_zero, blockFull1]
  simp only [fullHalf1_inFull]
  rfl

theorem blockFull2_eq : blockFull2 g { f with surf := surf } =
    inFull f 4 (putBlock g f.blk (rowOfMode2 f) surf) := by
  rw [← inFull_zero, blockFull2]
  simp only [fullHalf2_inFull]
  rfl

variable {g f surf}

/-- A FULL block, painted: what it changes besides its pixels. -/
theorem paint_of_inFull {block : FrameState → FrameState} {n : Nat} (h : block f = inFull f n surf) : paint block f =
    { f with
      wt := (afterFull f n).wt, cur := (afterFull f n).cur, surf := (paint block f).surf
      blk := f.blk + 1, dirty := markDirty f.blk f.dirty } := by
  rw [paint, h]
  rfl

/-- The pixels of a FULL block are those of its rows. -/
theorem paint_inFull_on {block : FrameState → FrameState} {rows : Nat → Row} {n : Nat}
    (h : block f = inFull f n (putBlock g f.blk rows f.surf)) (hblk : f.blk < g.nb) {r col a : Nat}
    (hon : onPixel g f.blk r col a) : pixelAt (paint block f).surf a = (rows r).pixel col := by
  rw [paint, h]
  exact putBlock_on hblk rows f.surf hon

theorem paint_inFull_off {block : FrameState → FrameState} {rows : Nat → Row} {n : Nat}
    (h : block f = inFull f n (putBlock g f.blk rows f.surf)) {a : Nat} (hoff : ¬ onBlock g f.blk a) :
    pixelAt (paint block f).surf a = pixelAt f.surf a := by
  rw [paint, h]
  exact putBlock_off rows f.surf hoff

end Full

/-- Every FULL block is written as every block is. -/
theorem writesBlock_blockFull (g : Cfg) (mode : Nat) : WritesBlock g (blockFull g mode) := by
  intro f
  unfold blockFull
  split_ifs
  · exact ⟨_, _, _, blockFull1_eq g f⟩
  · exact ⟨_, _, _, blockFull2_eq g f⟩
  · exact ⟨_, _, _, blockFull0_eq g f⟩

/-! ### FILL runs (R252, R253) -/

section Fill

variable {g : Cfg} {c : Byte} {f : FrameState}

theorem paint_blockFill_on (hblk : f.blk < g.nb) {a : Nat} (h : onBlock g f.blk a) :
    pixelAt (paint (blockFill g c) f).surf a = c := by
  obtain ⟨r, col, hon⟩ := h
  have hcolour : ∀ col, ({ p0 := c, p1 := c, p2 := c, p3 := c } : Row).pixel col = c := fun col => by
    unfold Row.pixel
    split <;> rfl
  exact (putBlock_on hblk _ f.surf hon).trans (hcolour col)

theorem paint_blockFill_off {a : Nat} (h : ¬ onBlock g f.blk a) :
    pixelAt (paint (blockFill g c) f).surf a = pixelAt f.surf a := putBlock_off _ _ h

/-- What `n` FILL blocks from `f` make of it. -/
structure Filled (g : Cfg) (c : Byte) (f : FrameState) (n : Nat) (f' : FrameState) : Prop where
  on : ∀ a, (∃ b, f.blk ≤ b ∧ b < f.blk + n ∧ onBlock g b a) → pixelAt f'.surf a = c
  off : ∀ a, (∀ b, f.blk ≤ b → b < f.blk + n → ¬ onBlock g b a) → pixelAt f'.surf a = pixelAt f.surf a
  dirty : ∀ b, b ∈ f'.dirty ↔ b ∈ f.dirty ∨ (f.blk ≤ b ∧ b < f.blk + n)
  rest : f' = { f with surf := f'.surf, dirty := f'.dirty, blk := f.blk + n }

theorem Filled.zero : Filled g c f 0 f where
  on := fun _ ⟨_, hle, hlt, _⟩ => absurd hlt (Nat.not_lt.2 hle)
  off := fun _ _ => rfl
  dirty := fun b => by simp
  rest := rfl

theorem Filled.succ {n : Nat} {f' : FrameState} (h : Filled g c f n f') (hblk : f.blk + n < g.nb) :
    Filled g c f (n + 1) (paint (blockFill g c) f') := by
  have hblk' : f'.blk = f.blk + n := congrArg FrameState.blk h.rest
  refine
    { on := fun a ⟨b, hle, hlt, hb⟩ => ?on, off := fun a hoff => ?off, dirty := fun b => ?dirty, rest := ?rest }
  case on =>
    by_cases hlast : onBlock g f'.blk a
    · exact paint_blockFill_on (hblk' ▸ hblk) hlast
    · have hne : b ≠ f.blk + n := fun h => hlast (by rwa [hblk', ← h])
      rw [paint_blockFill_off hlast]
      exact h.on a ⟨b, hle, by omega, hb⟩
  case off =>
    have hlast : ¬ onBlock g f'.blk a := by rw [hblk']; exact hoff _ (by omega) (by omega)
    rw [paint_blockFill_off hlast]
    exact h.off a fun b hle hlt => hoff b hle (by omega)
  case dirty =>
    change b ∈ markDirty f'.blk f'.dirty ↔ _
    have hsplit : f.blk ≤ b ∧ b < f.blk + (n + 1) ↔ b = f.blk + n ∨ (f.blk ≤ b ∧ b < f.blk + n) := by omega
    rw [mem_markDirty, h.dirty, hblk', hsplit, or_left_comm]
  case rest =>
    change ({ f' with surf := _, dirty := _, blk := f'.blk + 1 } : FrameState) = _
    rw [h.rest]
    rfl

theorem filled_iterate : ∀ {n : Nat}, f.blk + n ≤ g.nb → Filled g c f n ((paint (blockFill g c))^[n] f) := by
  intro n
  induction n with
  | zero => exact fun _ => Filled.zero
  | succ n ih =>
    intro hn
    rw [Function.iterate_succ_apply']
    exact (ih (by omega)).succ (by omega)

end Fill

/-- A run inside the grid, or no block at all (R244). -/
theorem filled_runFill (g : Cfg) (runidx : BitVec 6) (c : Byte) (f : FrameState) :
    Filled g c f (clampedRun g runidx f.blk) (runFill g runidx c f) := by
  rw [runFill_eq]
  rcases Nat.lt_or_ge f.blk g.nb with hblk | hblk
  · exact filled_iterate (clampedRun_le hblk runidx)
  · have hzero : clampedRun g runidx f.blk = 0 := by simp [clampedRun, Nat.sub_eq_zero_of_le hblk]
    rw [hzero]
    exact Filled.zero

end Sys2Proof.Machine

namespace Sys2Proof.Proofs

open Sys2Proof.Machine

/-- Settles O34: a SKIP run is an addition to blk. -/
theorem skipRunEffect : Obligations.SkipRunEffect := by
  intro i c s
  rw [exec_blkSkip, runSkip_eq]
  rfl

/-- Settles O35: block by block, the run fills and marks what it passes. -/
theorem fillRunEffect : Obligations.FillRunEffect := by
  intro i c s
  obtain ⟨hon, hoff, hdirty, hrest⟩ := filled_runFill s.cfg i c s.frame
  refine ⟨_, exec_blkFill i c s, hon, hoff, hdirty, ?_⟩
  rw [hrest]
  rfl

/-- Settles O36: a run is its block iterated; which block a FULL run iterates its selector says. -/
theorem runsRepeatTheirBlock : Obligations.RunsRepeatTheirBlock := by
  intro i c s
  refine ⟨?mono, fun hsv => ?v2, fun hsv h => ?one, fun hsv h h' => ?zeroOne, fun hsv h h' => ?zeroZero,
    congrArg _ (fullRun_eq s 0 _), congrArg _ (fullRun_eq s 1 _), congrArg _ (fullRun_eq s 2 _),
    congrArg _ (fullRun_eq s 0 _)⟩
  case mono => rw [exec_blkMono, runMono_eq]; rfl
  case v2 => rw [exec_blkFull_of_sel i c (fullSel_v2 hsv), blockFull_zero]; rfl
  case one => rw [exec_blkFull_of_sel i c (fullSel_v4_one hsv h), blockFull_one]; rfl
  case zeroOne => rw [exec_blkFull_of_sel i c (fullSel_v4_zero_one hsv h h'), blockFull_two]; rfl
  case zeroZero => rw [exec_blkFull_of_sel i c (fullSel_v4_zero_zero hsv h h'), blockFull_zero]; rfl

/-- Settles O38: each mode writes its rows; a pixel is that of its row and column. -/
theorem fullBlockPixels : Obligations.FullBlockPixels := by
  intro g f hblk after code lo hi f0 f1 f2
  have h0 := blockFull0_eq g f f.surf
  have h1 := blockFull1_eq g f f.surf
  have h2 := blockFull2_eq g f f.surf
  have hon : ∀ r col a, onPixel g f.blk r col a → pixelAt f0.surf a = (rowOfMode0 f r).pixel col ∧
      pixelAt f1.surf a = (rowOfMode1 f r).pixel col ∧ pixelAt f2.surf a = (rowOfMode2 f r).pixel col :=
    fun _ _ _ h => ⟨paint_inFull_on h0 hblk h, paint_inFull_on h1 hblk h, paint_inFull_on h2 hblk h⟩
  exact ⟨fun r => hon r 0, fun r => hon r 1, fun r => hon r 2, fun r => hon r 3,
    fun _ h => ⟨paint_inFull_off h0 h, paint_inFull_off h1 h, paint_inFull_off h2 h⟩,
    paint_of_inFull h0, paint_of_inFull h1, paint_of_inFull h2⟩

end Sys2Proof.Proofs
end

section
/-! PROOFS. A frame as its block runs (43_frame_decoder.md R243, R244, R254), and what it makes of the surface (R253,
R255): O41, O42. -/

namespace Sys2Proof.Machine

/-! ### What a block run is (R243) -/

section BlockRun

variable {g : Cfg} {f : FrameState} {runidx : BitVec 6} {color : Byte}

theorem blockRun_mono (h : (f.getCode .typ).1 = packTypeCode 0 runidx color) :
    blockRun g f = (paint (blockMono g))^[clampedRun g runidx f.blk] (f.getCode .typ).2 := by
  unfold blockRun
  dsimp only
  rw [h, decodeTypeCode_mono]
  exact runMono_eq g runidx _

theorem blockRun_full {mode : Nat} {c : Cursor} (h : (f.getCode .typ).1 = packTypeCode 1 runidx color)
    (hsel : fullSel g.subver (f.getCode .typ).2.cur = (mode, c)) :
    blockRun g f =
      (paint (blockFull g mode))^[clampedRun g runidx f.blk] { (f.getCode .typ).2 with cur := c } := by
  unfold blockRun
  dsimp only
  rw [h, decodeTypeCode_full]
  exact runFull_of_sel runidx hsel

theorem blockRun_skip (h : (f.getCode .typ).1 = packTypeCode 2 runidx color) :
    blockRun g f = { (f.getCode .typ).2 with blk := f.blk + clampedRun g runidx f.blk } := by
  unfold blockRun
  dsimp only
  rw [h, decodeTypeCode_skip]
  exact runSkip_eq g runidx _

theorem blockRun_fill (h : (f.getCode .typ).1 = packTypeCode 3 runidx color) :
    blockRun g f = (paint (blockFill g color))^[clampedRun g runidx f.blk] (f.getCode .typ).2 := by
  unfold blockRun
  dsimp only
  rw [h, decodeTypeCode_fill]
  exact runFill_eq g runidx color _

/-- A type code whose KIND is known. -/
theorem eq_packTypeCode_of_kind (t : Half) {k : BitVec 2} (h : t.toNat % 4 = k.toNat) :
    t = packTypeCode k (t.extractLsb' 2 6) (t.extractLsb' 8 8) := by
  obtain ⟨kind, runidx, color, rfl⟩ := exists_packTypeCode t
  rw [kind_toNat] at h
  rw [packTypeCode_runidx, packTypeCode_color, BitVec.eq_of_toNat_eq h]

/-- A block run passes as many blocks as its type code says, clamped (R244). -/
theorem blockRun_blk (g : Cfg) (f : FrameState) :
    (blockRun g f).blk = f.blk + clampedRun g ((f.getCode .typ).1.extractLsb' 2 6) f.blk := by
  obtain ⟨kind, runidx, color, h⟩ := exists_packTypeCode (f.getCode .typ).1
  have hrunidx : (f.getCode .typ).1.extractLsb' 2 6 = runidx := by rw [h, packTypeCode_runidx]
  rw [hrunidx]
  rcases kind_cases kind with rfl | rfl | rfl | rfl
  · rw [blockRun_mono h, (writesBlock_blockMono g).iterate_blk]; rfl
  · rw [blockRun_full h rfl, (writesBlock_blockFull g _).iterate_blk]; rfl
  · rw [blockRun_skip h]
  · rw [blockRun_fill h, (writesBlock_blockFill g color).iterate_blk]; rfl

end BlockRun

/-! ### The runs of a frame (R241, R254) -/

section Frame

variable {g : Cfg}

/-- Block runs from inside the grid come to NB, each starting before it. -/
theorem exists_runs_to_nb {f : FrameState} (h : f.blk ≤ g.nb) :
    ∃ n, (∀ m, m < n → ((blockRun g)^[m] f).blk < g.nb) ∧ ((blockRun g)^[n] f).blk = g.nb := by
  induction hleft : g.nb - f.blk using Nat.strong_induction_on generalizing f with
  | _ left ih =>
    rcases Nat.eq_or_lt_of_le h with hend | hblk
    · exact ⟨0, fun m hm => absurd hm (Nat.not_lt_zero m), hend⟩
    · have hlt := blockRun_blk_lt hblk
      obtain ⟨n, hin, hend⟩ := ih _ (by omega) (blockRun_blk_le hblk) rfl
      refine ⟨n + 1, fun m hm => ?_, hend⟩
      cases m with
      | zero => exact hblk
      | succ m => exact hin m (Nat.lt_of_succ_lt_succ hm)

theorem decodeFrame_ok_iff {wt : Trees} {surf : Memory Byte} {vid : List Byte} {f : FrameState} :
    decodeFrame g wt surf vid = .ok f ↔ frameLoop g g.nb (frameStart wt surf vid) = f ∧ f.cur.ovr = false := by
  dsimp only [decodeFrame]
  split
  · next hovr => exact ⟨nofun, fun ⟨hf, h⟩ => by rw [hf, h] at hovr; cases hovr⟩
  · next hovr =>
    refine ⟨fun h => ?_, fun ⟨hf, _⟩ => congrArg _ hf⟩
    cases h
    exact ⟨rfl, Bool.eq_false_iff.2 hovr⟩

/-- A DECODE_FRAME that ends OK has decoded a frame, and is it. -/
theorem exec_decodeFrame_ok {vid : List Byte} {s t : State} (hp : s.phase = .ready)
    (ht : exec (.decodeFrame vid) s = .next t) (hok : t.status.code = .ok) :
    ∃ f, decodeFrame s.cfg s.wt s.surf vid = .ok f ∧
      t = State.finish { s with wt := f.wt, surf := f.surf, dirty := f.dirty, scan := 0 } := by
  rw [exec_decodeFrame vid hp] at ht
  cases hframe : decodeFrame s.cfg s.wt s.surf vid with
  | ok f =>
    rw [hframe] at ht
    cases ht
    exact ⟨f, rfl, rfl⟩
  | error cause =>
    rw [hframe] at ht
    cases ht
    have hfatal := decodeFrame_error hframe
    have hcode : cause.code = .ok := by rwa [State.orRaise_error, State.raise_status] at hok
    rw [hcode] at hfatal
    cases hfatal

end Frame

/-! ### Two surfaces under one frame (R253, R255) -/

section Twin

variable {g : Cfg} {before : Memory Byte}

/-- The frame `f` on a surface that was `before`, and the surface `surf` the same frame makes of another: inside the
dirty blocks, which lie in the grid, the two agree; outside them `f` has changed no pixel. -/
structure Twin (g : Cfg) (before : Memory Byte) (f : FrameState) (surf : Memory Byte) : Prop where
  range : ∀ b ∈ f.dirty, b < g.nb
  on : ∀ b ∈ f.dirty, ∀ a, onBlock g b a → pixelAt surf a = pixelAt f.surf a
  off : ∀ a, (∀ b ∈ f.dirty, ¬ onBlock g b a) → pixelAt f.surf a = pixelAt before a

/-- At `f` the operation does the same on both surfaces, but for the pixels neither has written. -/
def KeepsTwin (g : Cfg) (before : Memory Byte) (op : FrameState → FrameState) (f : FrameState) : Prop :=
  ∀ surf, Twin g before f surf →
    ∃ surf', op { f with surf := surf } = { op f with surf := surf' } ∧ Twin g before (op f) surf'

theorem KeepsTwin.comp {first second : FrameState → FrameState} {f : FrameState} (h : KeepsTwin g before first f)
    (h' : KeepsTwin g before second (first f)) : KeepsTwin g before (fun f => second (first f)) f := fun surf ht => by
  obtain ⟨surf1, heq1, ht1⟩ := h surf ht
  obtain ⟨surf2, heq2, ht2⟩ := h' surf1 ht1
  exact ⟨surf2, (congrArg second heq1).trans heq2, ht2⟩

/-- A written block has the same pixels on both surfaces, whatever they were. -/
theorem WritesBlock.keepsTwin {block : FrameState → FrameState} (h : WritesBlock g block) {f : FrameState}
    (hblk : f.blk < g.nb) : KeepsTwin g before (Machine.paint block) f := fun surf ht => by
  obtain ⟨rows, wt, cur, hpaint⟩ := h.paint f
  have hf := hpaint f.surf
  change Machine.paint block f = _ at hf
  rw [hpaint surf, hf]
  refine ⟨_, rfl, { range := fun b hb => ?range, on := fun b hb a hba => ?on, off := fun a hoff => ?off }⟩
  case range =>
    rcases mem_markDirty.1 hb with rfl | hb
    · exact hblk
    · exact ht.range b hb
  case on =>
    by_cases hnew : onBlock g f.blk a
    · obtain ⟨r, col, hon⟩ := hnew
      rw [putBlock_on hblk rows _ hon, putBlock_on hblk rows _ hon]
    · rcases mem_markDirty.1 hb with rfl | hb
      · exact absurd hba hnew
      · rw [putBlock_off _ _ hnew, putBlock_off _ _ hnew]
        exact ht.on b hb a hba
  case off =>
    rw [putBlock_off _ _ (hoff f.blk (mem_markDirty.2 (.inl rfl)))]
    exact ht.off a fun b hb => hoff b (mem_markDirty.2 (.inr hb))

theorem WritesBlock.iterate_keepsTwin {block : FrameState → FrameState} (h : WritesBlock g block) :
    ∀ {n : Nat} {f : FrameState}, f.blk + n ≤ g.nb → KeepsTwin g before ((Machine.paint block)^[n]) f := by
  intro n
  induction n with
  | zero => exact fun _ surf ht => ⟨surf, rfl, ht⟩
  | succ n ih =>
    intro f hn
    have hblk := h.paint_blk f
    exact (h.keepsTwin (by omega)).comp (ih (by omega))

/-- A block run does the same on both surfaces: its type code and its selector do not depend on them. -/
theorem keepsTwin_blockRun {f : FrameState} (hblk : f.blk < g.nb) : KeepsTwin g before (blockRun g) f := by
  obtain ⟨kind, runidx, color, h⟩ := exists_packTypeCode (f.getCode .typ).1
  have hle := clampedRun_le hblk runidx
  intro surf ht
  have htype : Twin g before (f.getCode .typ).2 surf := { ht with }
  have h' : (({ f with surf := surf } : FrameState).getCode .typ).1 = packTypeCode kind runidx color := h
  rcases kind_cases kind with rfl | rfl | rfl | rfl
  · rw [blockRun_mono h, blockRun_mono h']
    exact (writesBlock_blockMono g).iterate_keepsTwin (f := (f.getCode .typ).2) hle surf htype
  · rw [blockRun_full h rfl, blockRun_full h' rfl]
    exact (writesBlock_blockFull g _).iterate_keepsTwin (f := { (f.getCode .typ).2 with cur := _ }) hle surf
      { htype with }
  · rw [blockRun_skip h, blockRun_skip h']
    exact ⟨surf, rfl, { htype with }⟩
  · rw [blockRun_fill h, blockRun_fill h']
    exact (writesBlock_blockFill g color).iterate_keepsTwin (f := (f.getCode .typ).2) hle surf htype

theorem keepsTwin_frameLoop : ∀ (n : Nat) (f : FrameState), KeepsTwin g before (frameLoop g n) f := by
  intro n
  induction n with
  | zero => exact fun _ surf ht => ⟨surf, rfl, ht⟩
  | succ n ih =>
    intro f
    by_cases hblk : f.blk < g.nb
    · have hrun := (keepsTwin_blockRun (before := before) hblk).comp (ih (blockRun g f))
      intro surf ht
      rw [frameLoop, frameLoop, if_pos hblk, if_pos hblk]
      exact hrun surf ht
    · intro surf ht
      rw [frameLoop, frameLoop, if_neg hblk, if_neg hblk]
      exact ⟨surf, rfl, ht⟩

/-- A frame that is decoded on one surface is decoded on every other. -/
theorem decodeFrame_twin {wt : Trees} {vid : List Byte} {f : FrameState} (surf : Memory Byte)
    (h : decodeFrame g wt before vid = .ok f) :
    ∃ surf', decodeFrame g wt surf vid = .ok { f with surf := surf' } ∧ Twin g before f surf' := by
  obtain ⟨rfl, hovr⟩ := decodeFrame_ok_iff.1 h
  have hstart : Twin g before (frameStart wt before vid) surf := { range := nofun, on := nofun, off := fun _ _ => rfl }
  obtain ⟨surf', heq, ht⟩ := keepsTwin_frameLoop g.nb _ surf hstart
  exact ⟨surf', decodeFrame_ok_iff.2 ⟨heq, hovr⟩, ht⟩

end Twin

end Sys2Proof.Machine

namespace Sys2Proof.Proofs

open Sys2Proof.Machine

/-- Settles O41: every block run passes a block and none passes NB, so the runs come to NB, and the loop is those runs;
a run is its type code's, and a FILL block has one colour. -/
theorem frameCoversEveryBlock : Obligations.FrameCoversEveryBlock := by
  refine ⟨fun vid s hp => ?frame, fun g f => ?run, fun g c f hblk => ?fill⟩
  case frame =>
    obtain ⟨n, hin, hend⟩ := exists_runs_to_nb (g := s.cfg) (f := frameStart s.wt s.surf vid) (Nat.zero_le _)
    have hloop := frameLoop_eq_iterate (hend ▸ le_blk_iterate_blockRun hin) hin hend
    refine ⟨n, fun m hm => ⟨hin m hm, ?_⟩, hend, fun hpos => ?_, fun t ht hok => ?_⟩
    · have hstep := blockRun_blk s.cfg ((blockRun s.cfg)^[m] (frameStart s.wt s.surf vid))
      rw [← Function.iterate_succ_apply' (blockRun s.cfg)] at hstep
      exact hstep
    · have hovr := (hloop ▸ frameLoop_reaches s.cfg.nb (frameStart s.wt s.surf vid)).inside hpos
      rw [exec_decodeFrame vid hp, decodeFrame_ok_iff.2 ⟨hloop, hovr⟩]
      rfl
    · obtain ⟨f, hf, _⟩ := exec_decodeFrame_ok hp ht hok
      by_contra hpos
      have hpast : 8 * vid.length < (frameLoop s.cfg s.cfg.nb (frameStart s.wt s.surf vid)).cur.pos := by
        rw [hloop]
        exact Nat.lt_of_not_le hpos
      rw [decodeFrame_of_overrun hpast] at hf
      cases hf
  case run =>
    intro T h n b0 b1
    have hcode : ∀ k : BitVec 2, T.toNat % 4 = k.toNat →
        T = packTypeCode k (T.extractLsb' 2 6) (T.extractLsb' 8 8) := fun _ => eq_packTypeCode_of_kind T
    refine ⟨fun hk => blockRun_mono (hcode 0 hk), fun hk hsv => ?v2, fun hk hsv h0 => ?one,
      fun hk hsv h0 h1 => ?zeroOne, fun hk hsv h0 h1 => ?zeroZero, fun hk => blockRun_skip (hcode 2 hk),
      fun hk => blockRun_fill (hcode 3 hk)⟩
    case v2 => rw [blockRun_full (hcode 1 hk) (fullSel_v2 hsv), blockFull_zero]; rfl
    case one => rw [blockRun_full (hcode 1 hk) (fullSel_v4_one hsv h0), blockFull_one]; rfl
    case zeroOne => rw [blockRun_full (hcode 1 hk) (fullSel_v4_zero_one hsv h0 h1), blockFull_two]; rfl
    case zeroZero => rw [blockRun_full (hcode 1 hk) (fullSel_v4_zero_zero hsv h0 h1), blockFull_zero]; rfl
  case fill => exact ⟨fun a h => paint_blockFill_on hblk h, fun a h => paint_blockFill_off h, rfl⟩

/-- Settles O42: the frame on the other surface is the twin of the frame on this one. -/
theorem frameWritesItsBlocksOnly : Obligations.FrameWritesItsBlocksOnly := by
  intro vid surf s t u hp ht hu hok
  obtain ⟨f, hf, rfl⟩ := exec_decodeFrame_ok hp ht hok
  obtain ⟨surf', hf', htwin⟩ := decodeFrame_twin surf hf
  rw [exec_decodeFrame (s := { s with surf := surf }) vid hp, hf'] at hu
  cases hu
  exact ⟨rfl, rfl, rfl, htwin.range, htwin.on, htwin.off⟩

end Sys2Proof.Proofs
end

section
/-! PROOFS. The dirty-rectangle scanner (44_dirty_rect.md): what one GET_DIRTY_RECT finds and clears, and that the calls
up to NONE take the dirty blocks apart into rectangles: O45 and O46. -/

namespace Sys2Proof.Machine

/-! ### The first dirty block (R290, R291) -/

theorem firstDirty_eq_none_iff {g : Cfg} {dirty : List Nat} {scan : Nat} :
    firstDirty g dirty scan = none ↔ ∀ b ∈ dirty, scan ≤ b → g.nb ≤ b := by
  simp [firstDirty, List.min?_eq_none_iff, List.filter_eq_nil_iff]

theorem firstDirty_eq_some_iff {g : Cfg} {dirty : List Nat} {scan k : Nat} :
    firstDirty g dirty scan = some k ↔
      (k ∈ dirty ∧ scan ≤ k ∧ k < g.nb) ∧ ∀ b ∈ dirty, scan ≤ b → b < g.nb → k ≤ b := by
  simp [firstDirty, List.min?_eq_some_iff, List.mem_filter]

/-! ### Runs that stop at a bound (R292, R293) -/

/-- The numbers from `start` to `stop - 1` have the property, and `stop` is the bound or has it not. Both growths of the
scanner stop so: the one to the right at BW, the one downward at BH. -/
structure MaximalRun (bound : Nat) (Q : Nat → Prop) (start stop : Nat) : Prop where
  le : start ≤ stop
  inside : stop ≤ bound
  holds : ∀ m, start ≤ m → m < stop → Q m
  stops : stop = bound ∨ ¬ Q stop

namespace MaximalRun

variable {bound start stop : Nat} {Q : Nat → Prop}

theorem here (hle : start ≤ bound) (h : start = bound ∨ ¬ Q start) : MaximalRun bound Q start start where
  le := le_rfl
  inside := hle
  holds := fun _ _ _ => by omega
  stops := h

theorem onward (hQ : Q start) (h : MaximalRun bound Q (start + 1) stop) : MaximalRun bound Q start stop where
  le := Nat.le_of_succ_le h.le
  inside := h.inside
  holds := fun m hm hlt => by
    rcases hm.eq_or_lt with rfl | hm
    · exact hQ
    · exact h.holds m hm hlt
  stops := h.stops

/-- A run whose first number has the property is not empty. -/
theorem lt_of_holds (h : MaximalRun bound Q start stop) (hlt : start < bound) (hQ : Q start) : start < stop := by
  rcases h.le.eq_or_lt with rfl | hne
  · rcases h.stops with heq | hnot
    · omega
    · exact absurd hQ hnot
  · exact hne

/-- A loop that counts upward while the property holds below the bound, with the fuel to reach the bound, stops at the
end of the maximal run. -/
theorem of_loop [DecidablePred Q] {loop : Nat → Nat → Nat} (hzero : ∀ n, loop 0 n = n)
    (hsucc : ∀ fuel n, loop (fuel + 1) n = if n < bound ∧ Q n then loop fuel (n + 1) else n)
    (fuel : Nat) {n : Nat} (hle : n ≤ bound) (hfuel : bound ≤ n + fuel) : MaximalRun bound Q n (loop fuel n) := by
  induction fuel generalizing n with
  | zero =>
    rw [hzero]
    exact here hle (.inl (by omega))
  | succ fuel ih =>
    rw [hsucc]
    split
    · next h => exact onward h.2 (ih h.1 (by omega))
    · next h => exact here hle (by rw [not_and_or] at h; exact h.imp (by omega) id)

end MaximalRun

/-! ### The rectangle at a dirty block (R292, R293) -/

/-- Row `y` continues a rectangle of columns `x0` to `x1 - 1` (R293). -/
def JoinsRow (g : Cfg) (dirty : List Nat) (x0 x1 y : Nat) : Prop :=
  (∀ x, x0 ≤ x → x < x1 → y * g.bw + x ∈ dirty) ∧
    (x0 = 0 ∨ y * g.bw + (x0 - 1) ∉ dirty) ∧ (x1 = g.bw ∨ y * g.bw + x1 ∉ dirty)

section Rectangle

variable {g : Cfg} {dirty : List Nat}

theorem rowJoins_iff {x0 x1 y : Nat} (h : x0 ≤ x1) :
    rowJoins g dirty x0 x1 y = true ↔ JoinsRow g dirty x0 x1 y := by
  have hall : (List.range' x0 (x1 - x0)).all (fun x => isDirty dirty (y * g.bw + x)) = true ↔
      ∀ x, x0 ≤ x → x < x1 → y * g.bw + x ∈ dirty := by
    simp [isDirty, List.mem_range'_1, Nat.add_sub_cancel' h]
  have hleft : (x0 == 0 || !isDirty dirty (y * g.bw + x0 - 1)) = true ↔
      x0 = 0 ∨ y * g.bw + (x0 - 1) ∉ dirty := by
    rcases Nat.eq_zero_or_pos x0 with rfl | hpos
    · simp
    · simp [isDirty, Nat.add_sub_assoc hpos]
  have hright : (x1 == g.bw || !isDirty dirty (y * g.bw + x1)) = true ↔
      x1 = g.bw ∨ y * g.bw + x1 ∉ dirty := by
    simp [isDirty]
  rw [rowJoins, Bool.and_eq_true, Bool.and_eq_true, hall, hleft, hright, and_assoc, JoinsRow]

theorem growRight_maximalRun (row : Nat) {x : Nat} (hx : x ≤ g.bw) :
    MaximalRun g.bw (fun x => row * g.bw + x ∈ dirty) x (growRight g dirty row g.bw x) := by
  simp only [← isDirty_iff]
  exact .of_loop (fun _ => rfl) (fun _ _ => rfl) g.bw hx (Nat.le_add_left _ _)

theorem growDown_maximalRun {x0 x1 y : Nat} (hx : x0 ≤ x1) (hy : y ≤ g.bh) :
    MaximalRun g.bh (JoinsRow g dirty x0 x1) y (growDown g dirty x0 x1 g.bh y) := by
  have hrow : JoinsRow g dirty x0 x1 = fun y => rowJoins g dirty x0 x1 y = true :=
    funext fun _ => propext (rowJoins_iff hx).symm
  rw [hrow]
  exact .of_loop (fun _ => rfl) (fun _ _ => rfl) g.bh hy (Nat.le_add_left _ _)

/-- What R292 and R293 make of the dirty block `k`: the rectangle starts at `k`, its top row is the maximal dirty run
there, and it goes down as far as rows join. -/
structure GrownFrom (g : Cfg) (dirty : List Nat) (k : Nat) (r : BlockRect) : Prop where
  left : r.x0 = k % g.bw
  top : r.y0 = k / g.bw
  right : MaximalRun g.bw (fun x => r.y0 * g.bw + x ∈ dirty) r.x0 r.x1
  wide : r.x0 < r.x1
  down : MaximalRun g.bh (JoinsRow g dirty r.x0 r.x1) (r.y0 + 1) r.y1

theorem rectFrom_grown {k : Nat} (hk : k ∈ dirty) (hlt : k < g.nb) :
    GrownFrom g dirty k (rectFrom g dirty k) := by
  have hbw : 0 < g.bw := Nat.pos_of_mul_pos_right (Nat.zero_lt_of_lt hlt)
  have hx : k % g.bw < g.bw := Nat.mod_lt _ hbw
  have hy : k / g.bw < g.bh := Nat.div_lt_of_lt_mul hlt
  have hright := growRight_maximalRun (dirty := dirty) (k / g.bw) hx.le
  have hstart : k / g.bw * g.bw + k % g.bw ∈ dirty := by rwa [Nat.div_add_mod']
  exact {
    left := rfl
    top := rfl
    right := hright
    wide := hright.lt_of_holds hx hstart
    down := growDown_maximalRun hright.le hy }

/-- A rectangle of blocks that is not empty and lies inside the grid. -/
def BlockRect.inGrid (g : Cfg) (r : BlockRect) : Prop :=
  r.x0 < r.x1 ∧ r.x1 ≤ g.bw ∧ r.y0 < r.y1 ∧ r.y1 ≤ g.bh

theorem BlockRect.contains_iff {r : BlockRect} {b : Nat} :
    r.contains g b = true ↔ (r.x0 ≤ b % g.bw ∧ b % g.bw < r.x1) ∧ r.y0 ≤ b / g.bw ∧ b / g.bw < r.y1 := by
  simp [BlockRect.contains, and_assoc]

namespace GrownFrom

variable {k : Nat} {r : BlockRect}

theorem inGrid (h : GrownFrom g dirty k r) : r.inGrid g :=
  ⟨h.wide, h.right.inside, h.down.le, h.down.inside⟩

theorem contains_start (h : GrownFrom g dirty k r) : r.contains g k = true :=
  BlockRect.contains_iff.2 ⟨⟨h.left.le, h.left ▸ h.wide⟩, h.top.le, h.top ▸ h.down.le⟩

/-- Every block of the rectangle was dirty: it lies in the top row's run, or in a row that joined. -/
theorem dirty_of_contains (h : GrownFrom g dirty k r) {b : Nat} (hb : r.contains g b = true) : b ∈ dirty := by
  obtain ⟨⟨hleft, hright⟩, htop, hbottom⟩ := BlockRect.contains_iff.1 hb
  rw [← Nat.div_add_mod' b g.bw]
  rcases htop.eq_or_lt with heq | hbelow
  · rw [← heq]
    exact h.right.holds _ hleft hright
  · exact (h.down.holds _ hbelow hbottom).1 _ hleft hright

end GrownFrom

end Rectangle

/-! ### RECT (R295) -/

theorem coord_toNat {n : Nat} (h : n < 2 ^ 32) : (coord n).toNat = n := by
  rw [coord, if_pos h, BitVec.toNat_ofNat, Nat.mod_eq_of_lt h]

/-- The pixel column of a block column fits a u32, as W does. -/
theorem Cfg.four_mul_lt_of_le_bw {g : Cfg} {x : Nat} (h : x ≤ g.bw) : 4 * x < 2 ^ 32 := by
  have hw : g.w.toNat < 2 ^ 32 := g.w.isLt
  unfold Cfg.bw at h
  omega

/-! ### One GET_DIRTY_RECT (R290, R294, R296) -/

section Call

variable {s : State}

theorem Phase.isOpen_of_configured_or_ready {p : Phase} (h : p = .configured ∨ p = .ready) : p.isOpen = true := by
  rcases h with rfl | rfl <;> rfl

theorem exec_getDirtyRect (h : s.phase = .configured ∨ s.phase = .ready) :
    exec .getDirtyRect s = .next s.nextRect := by
  change Host.Outcome.next (s.whenAdmitted s.phase.isOpen s.nextRect) = _
  rw [Phase.isOpen_of_configured_or_ready h, State.whenAdmitted_true]

theorem State.nextRect_of_none (h : firstDirty s.cfg s.dirty s.scan = none) :
    s.nextRect = State.finish { s with scan := 0, rect := none } := by
  rw [State.nextRect, h]

theorem State.nextRect_of_some {k : Nat} (h : firstDirty s.cfg s.dirty s.scan = some k) :
    s.nextRect = State.finish { s with
      dirty := clearDirty ((rectFrom s.cfg s.dirty k).contains s.cfg) s.dirty
      scan := k, rect := some ((rectFrom s.cfg s.dirty k).toRect s.cfg) } := by
  rw [State.nextRect, h]

end Call

/-! ### The calls up to NONE (R297) -/

/-- The rectangles lie inside the grid, do not overlap, and hold exactly the dirty blocks. -/
structure Partitions (g : Cfg) (dirty : List Nat) (rs : List BlockRect) : Prop where
  grid : ∀ r ∈ rs, r.inGrid g
  disjoint : rs.Pairwise fun p q => ∀ b, b < g.nb → ¬ (p.contains g b = true ∧ q.contains g b = true)
  covers : ∀ b, b ∈ dirty ↔ b < g.nb ∧ ∃ r ∈ rs, r.contains g b = true

theorem Partitions.nil (g : Cfg) : Partitions g [] [] where
  grid := nofun
  disjoint := .nil
  covers := by simp

/-- A rectangle of dirty blocks, before a partition of the dirty blocks outside it. -/
theorem Partitions.cons {g : Cfg} {dirty : List Nat} {r : BlockRect} {rs : List BlockRect} (hgrid : r.inGrid g)
    (hrange : ∀ b ∈ dirty, b < g.nb) (hdirty : ∀ b, r.contains g b = true → b ∈ dirty)
    (h : Partitions g (clearDirty (r.contains g) dirty) rs) : Partitions g dirty (r :: rs) where
  grid := List.forall_mem_cons.2 ⟨hgrid, h.grid⟩
  disjoint := by
    refine List.pairwise_cons.2 ⟨fun q hq b hb hboth => ?_, h.disjoint⟩
    obtain ⟨_, hout⟩ := mem_clearDirty.1 ((h.covers b).2 ⟨hb, q, hq, hboth.2⟩)
    rw [hboth.1] at hout
    cases hout
  covers b := by
    have hrest := h.covers b
    rw [mem_clearDirty] at hrest
    constructor
    · intro hb
      refine ⟨hrange b hb, ?_⟩
      cases hin : r.contains g b with
      | true => exact ⟨r, List.mem_cons_self, hin⟩
      | false =>
        obtain ⟨_, q, hq, hqb⟩ := hrest.1 ⟨hb, hin⟩
        exact ⟨q, List.mem_cons_of_mem _ hq, hqb⟩
    · rintro ⟨hb, q, hq, hqb⟩
      rcases List.mem_cons.1 hq with rfl | hq
      · exact hdirty b hqb
      · exact (hrest.2 ⟨hb, q, hq, hqb⟩).1

/-- A call that gives a rectangle clears a dirty bit at least. -/
theorem length_clearDirty_lt {inside : Nat → Bool} {dirty : List Nat} {k : Nat} (hk : k ∈ dirty)
    (hin : inside k = true) : (clearDirty inside dirty).length < dirty.length :=
  List.length_filter_lt_length_iff_exists.2 ⟨k, hk, by simp [hin]⟩

/-- DIRTY has at most NB bits that are 1. -/
theorem State.Inv.length_dirty_le {s : State} (h : s.Inv) (hp : s.phase ≠ .failed) : s.dirty.length ≤ s.cfg.nb := by
  have hnodup : s.dirty.Nodup := (h.dirtyOrder hp).imp Nat.ne_of_lt
  have hsub : s.dirty ⊆ List.range s.cfg.nb := fun b hb => List.mem_range.2 (h.dirtyRange hp b hb).2
  simpa using (hnodup.subperm hsub).length_le

/-- The calls from a state of the invariant, by how many dirty bits are left: each gives NONE with none left, or a
rectangle of dirty blocks. -/
theorem exists_drains {s : State} (h : s.Inv) (hp : s.phase = .configured ∨ s.phase = .ready) :
    ∃ rs u, Drains s rs u ∧ rs.length ≤ s.dirty.length ∧ u.dirty = [] ∧ Partitions s.cfg s.dirty rs := by
  induction hn : s.dirty.length using Nat.strong_induction_on generalizing s with
  | _ n ih =>
    subst hn
    have hne := isOpen_ne_failed (Phase.isOpen_of_configured_or_ready hp)
    have hexec := exec_getDirtyRect hp
    have hinv := h.nextRect hne
    cases hfirst : firstDirty s.cfg s.dirty s.scan with
    | none =>
      rw [State.nextRect_of_none hfirst] at hexec
      have hnil : s.dirty = [] := List.eq_nil_iff_forall_not_mem.2 fun b hb =>
        firstDirty_none hfirst b hb (h.dirtyRange hne b hb).1 (h.dirtyRange hne b hb).2
      exact ⟨[], _, .done hexec rfl, Nat.zero_le _, hnil, hnil ▸ .nil s.cfg⟩
    | some k =>
      obtain ⟨⟨hk, _, hlt⟩, _⟩ := firstDirty_eq_some_iff.1 hfirst
      have hrect := rectFrom_grown hk hlt
      have hless := length_clearDirty_lt hk hrect.contains_start
      rw [State.nextRect_of_some hfirst] at hexec hinv
      obtain ⟨rs, u, hdrains, hlength, hnil, hparts⟩ := ih _ hless hinv hp rfl
      exact ⟨_ :: rs, u, .more hexec rfl hdrains, Nat.lt_of_le_of_lt hlength hless, hnil,
        .cons hrect.inGrid (fun b hb => (h.dirtyRange hne b hb).2) (fun _ => hrect.dirty_of_contains) hparts⟩

end Sys2Proof.Machine

namespace Sys2Proof.Proofs

open Sys2Proof.Machine

/-- Settles O45: by the first dirty block, if there is one, and the rectangle grown from it. -/
theorem getDirtyRectEffect : Obligations.GetDirtyRectEffect := by
  refine ⟨fun s hp hclean => ?none, fun k s hp hk hscan hlt hleast => ?some⟩
  case none =>
    rw [exec_getDirtyRect hp, State.nextRect_of_none (firstDirty_eq_none_iff.2 hclean)]
    rfl
  case some =>
    have hfirst := firstDirty_eq_some_iff.2 ⟨⟨hk, hscan, hlt⟩, fun b hb hs _ => hleast b hb hs⟩
    have hrect := rectFrom_grown hk hlt
    have hx1 := hrect.right.inside
    refine ⟨_, _, (rectFrom s.cfg s.dirty k).toRect s.cfg, hrect.wide, hx1, hrect.right.holds, hrect.right.stops,
      hrect.down.le, hrect.down.inside, hrect.down.holds, hrect.down.stops,
      coord_toNat (Cfg.four_mul_lt_of_le_bw (hrect.wide.le.trans hx1)), coord_toNat (Cfg.four_mul_lt_of_le_bw hx1),
      coord_toNat, coord_toNat, ?_⟩
    rw [exec_getDirtyRect hp, State.nextRect_of_some hfirst]
    rfl

/-- Settles O46: every call clears a bit, and there are at most NB of them. -/
theorem dirtySequenceIsFiniteAndExact : Obligations.DirtySequenceIsFiniteAndExact := by
  intro s h hp
  obtain ⟨rs, u, hdrains, hlength, hnil, hparts⟩ := exists_drains h hp
  have hnb := h.length_dirty_le (isOpen_ne_failed (Phase.isOpen_of_configured_or_ready hp))
  exact ⟨rs, u, hdrains, hlength.trans hnb, hnil, hparts.grid, hparts.disjoint, hparts.covers⟩

end Sys2Proof.Proofs
end

section
/-! PROOFS. The palette unpacker (45_palette.md): what each row does where its bytes lie below len, what a run of legal
records leaves, and the ends of UNPACK_PALETTE and ACK_PALETTE: O47 to O52. -/

namespace Sys2Proof.Machine

/-! ### Entries of PAL (R314, R315) -/

@[simp] theorem entryAt_write_same (pal : Memory Rgb) (e : Nat) (v : Rgb) : entryAt (pal.write e v) e = v :=
  pal.read_write_same _ e v

theorem entryAt_write_other (pal : Memory Rgb) {e i : Nat} (h : i ≠ e) (v : Rgb) :
    entryAt (pal.write e v) i = entryAt pal i :=
  pal.read_write_other _ h v

theorem entryAt_write (pal : Memory Rgb) (e i : Nat) (v : Rgb) :
    entryAt (pal.write e v) i = if i = e then v else entryAt pal i := by
  split
  case isTrue h => rw [h, entryAt_write_same]
  case isFalse h => rw [entryAt_write_other _ h]

theorem entryAt_copyEntries (old : Memory Rgb) (src e : Nat) (pal : Memory Rgb) (i : Nat) : ∀ n,
    entryAt (copyEntries old src e n pal) i =
      if e ≤ i ∧ i < e + n then entryAt old (src + (i - e)) else entryAt pal i := by
  intro n
  induction n with
  | zero => rw [copyEntries, if_neg (by omega)]
  | succ n ih =>
    rw [copyEntries, entryAt_write]
    split
    case isTrue h => rw [h, if_pos (by omega), Nat.add_sub_cancel_left]
    case isFalse h =>
      have hrange : (e ≤ i ∧ i < e + n) ↔ (e ≤ i ∧ i < e + (n + 1)) := by omega
      rw [ih, if_congr hrange rfl rfl]

theorem up6_low (b : Byte) : up6 (b.extractLsb' 0 6) = upscaled (b.toNat % 64) := by
  rw [up6, toNat_field, pow_zero, Nat.div_one]
  rfl

theorem literalColour_eq (r6 : BitVec 6) (g b : Byte) : literalColour r6 g b =
    { r := upscaled r6.toNat, g := upscaled (g.toNat % 64), b := upscaled (b.toNat % 64) } := by
  rw [literalColour, up6_low, up6_low]
  rfl

/-! ### The rows, by whether their bytes lie below len (R311, R313 to R315) -/

section Rows

variable {k : PalChunk} {p : PalState}

theorem PalChunk.byte_of_lt {q : Nat} (h : q < k.len) : k.byte q = .ok (k.buf.getD q 0) :=
  if_neg (Nat.not_le.2 h)

theorem PalChunk.byte_of_le {q : Nat} (h : k.len ≤ q) : k.byte q = .error .palTrunc := if_pos h

theorem palSkip_of_fits {n : BitVec 7} (h : p.entry + (n.toNat + 1) ≤ 256) :
    palSkip n p = .ok { p with entry := p.entry + (n.toNat + 1) } :=
  if_neg (Nat.not_lt.2 h)

theorem palSkip_of_overshoot {n : BitVec 7} (h : 256 < p.entry + (n.toNat + 1)) :
    palSkip n p = .error .palOvershoot :=
  if_pos h

theorem palCopy_of_trunc (n : BitVec 6) (h : k.len ≤ p.pos) : palCopy k n p = .error .palTrunc := by
  rw [palCopy, PalChunk.byte_of_le h]

/-- Where SRC is read, the copy passes entry 255, or else reads past it, or copies. -/
theorem palCopy_of_src (n : BitVec 6) (h : p.pos < k.len) : palCopy k n p =
    if 256 < p.entry + (n.toNat + 1) then .error .palOvershoot
    else if 256 < (k.buf.getD p.pos 0).toNat + (n.toNat + 1) then .error .palCopyRange
    else .ok
      { pal := copyEntries k.old (k.buf.getD p.pos 0).toNat p.entry (n.toNat + 1) p.pal
        pos := p.pos + 1, entry := p.entry + (n.toNat + 1) } := by
  rw [palCopy, PalChunk.byte_of_lt h]

/-- A literal whose second byte lies at or past len is truncated, whether or not its first one does. -/
theorem palLiteral_of_trunc (r6 : BitVec 6) (h : k.len ≤ p.pos + 1) : palLiteral k r6 p = .error .palTrunc := by
  rw [palLiteral]
  by_cases hfirst : p.pos < k.len
  · rw [PalChunk.byte_of_lt hfirst, PalChunk.byte_of_le h]
    rfl
  · rw [PalChunk.byte_of_le (Nat.not_lt.1 hfirst)]
    rfl

theorem palLiteral_of_bytes (r6 : BitVec 6) (h : p.pos + 1 < k.len) : palLiteral k r6 p =
    .ok
      { pal := p.pal.write p.entry (literalColour r6 (k.buf.getD p.pos 0) (k.buf.getD (p.pos + 1) 0))
        pos := p.pos + 2, entry := p.entry + 1 } := by
  rw [palLiteral, PalChunk.byte_of_lt (by omega), PalChunk.byte_of_lt h]
  rfl

end Rows

/-! ### One record of a chunk (R310) -/

namespace PalRecord

/-- The row of the record's control byte. -/
def row : PalRecord → Instr
  | .skip n => .palSkip n
  | .copy n _ => .palCopy n
  | .lit r6 _ _ => .palLit r6

theorem extractLsb'_low {m : Nat} {ctl : Byte} {n : BitVec m} (h : ctl.toNat % 2 ^ m = n.toNat) :
    ctl.extractLsb' 0 m = n :=
  BitVec.eq_of_toNat_eq (by rw [toNat_field, pow_zero, Nat.div_one, h])

/-- The control byte of a record decodes to the record's row (R107). -/
theorem decodePalByte_head {r : PalRecord} {ctl : Byte} (h : r.bytes.head? = some ctl) :
    decodePalByte ctl = r.row := by
  cases r with
  | skip n =>
    have hn := n.isLt
    cases h
    have hbyte : (BitVec.ofNat 8 (128 + n.toNat)).toNat = 128 + n.toNat := by rw [BitVec.toNat_ofNat]; omega
    rw [decodePalByte_skip (by omega), extractLsb'_low (n := n) (by omega), row]
  | copy n src =>
    have hn := n.isLt
    cases h
    have hbyte : (BitVec.ofNat 8 (64 + n.toNat)).toNat = 64 + n.toNat := by rw [BitVec.toNat_ofNat]; omega
    rw [decodePalByte_copy (by omega) (by omega), extractLsb'_low (n := n) (by omega), row]
  | lit r6 g b =>
    have hn := r6.isLt
    cases h
    have hbyte : (BitVec.ofNat 8 r6.toNat).toNat = r6.toNat := by rw [BitVec.toNat_ofNat]; omega
    rw [decodePalByte_lit (by omega), extractLsb'_low (n := r6) (by omega), row]

/-- What the row of a record does after the control byte. -/
def unpack (k : PalChunk) : PalRecord → PalState → Except Cause PalState
  | .skip n => palSkip n
  | .copy n _ => palCopy k n
  | .lit r6 _ _ => palLiteral k r6

/-- PAL after the record, its first entry being `e`. -/
def store (old : Memory Rgb) (e : Nat) (pal : Memory Rgb) : PalRecord → Memory Rgb
  | .skip _ => pal
  | .copy n src => copyEntries old src.toNat e (n.toNat + 1) pal
  | .lit r6 g b => pal.write e (literalColour r6 g b)

/-- PAL, p and e after the record. -/
def after (old : Memory Rgb) (p : PalState) (r : PalRecord) : PalState :=
  { pal := r.store old p.entry p.pal, pos := p.pos + r.bytes.length, entry := p.entry + r.span }

/-- The bytes of the record stand at `q` in the chunk, below len. -/
structure LiesAt (r : PalRecord) (k : PalChunk) (q : Nat) : Prop where
  below : q + r.bytes.length ≤ k.len
  bytes : r.bytes <+: k.buf.drop q

theorem bytes_length_pos (r : PalRecord) : 0 < r.bytes.length := by cases r <;> exact Nat.succ_pos _

theorem span_pos (r : PalRecord) : 0 < r.span := by cases r <;> exact Nat.succ_pos _

section Record

variable {k : PalChunk} {p : PalState} {r : PalRecord}

/-- The control byte at p selects the record's row. -/
theorem palRecord_of_head (hlt : p.pos < k.len) (hhead : (k.buf.drop p.pos).head? = r.bytes.head?) :
    palRecord k p = r.unpack k { p with pos := p.pos + 1 } := by
  have hctl : decodePalByte (k.buf.getD p.pos 0) = r.row := by
    obtain ⟨ctl, hctl⟩ : ∃ ctl, r.bytes.head? = some ctl := by cases r <;> exact ⟨_, rfl⟩
    rw [List.head?_drop, hctl] at hhead
    rw [List.getD_eq_getElem?_getD, hhead]
    exact decodePalByte_head hctl
  simp only [palRecord, PalChunk.byte_of_lt hlt, bind, Except.bind, hctl]
  cases r <;> rfl

/-- A byte of the chunk that belongs to the record. -/
theorem LiesAt.getD {q : Nat} (h : r.LiesAt k q) {i : Nat} (hi : i < r.bytes.length) :
    k.buf.getD (q + i) 0 = r.bytes.getD i 0 := by
  obtain ⟨tail, htail⟩ := h.bytes
  rw [List.getD_eq_getElem?_getD, ← List.getElem?_drop, ← htail, List.getElem?_append_left hi,
    ← List.getD_eq_getElem?_getD]

theorem LiesAt.palRecord_eq (h : r.LiesAt k p.pos) : palRecord k p = r.unpack k { p with pos := p.pos + 1 } := by
  have hpos := r.bytes_length_pos
  refine palRecord_of_head (Nat.lt_of_lt_of_le (by omega) h.below) ?_
  obtain ⟨tail, htail⟩ := h.bytes
  rw [← htail, List.head?_append_of_ne_nil _ (List.ne_nil_of_length_pos hpos)]

/-- A copy whose bytes lie below len: its outcome by its own SRC. -/
theorem LiesAt.palRecord_copy {n : BitVec 6} {src : Byte} (h : (copy n src).LiesAt k p.pos) :
    palRecord k p =
      if 256 < p.entry + (n.toNat + 1) then .error .palOvershoot
      else if 256 < src.toNat + (n.toNat + 1) then .error .palCopyRange
      else .ok ((copy n src).after k.old p) := by
  have hsrc : k.buf.getD (p.pos + 1) 0 = src := h.getD (i := 1) (show (1 : Nat) < 2 by decide)
  rw [h.palRecord_eq]
  refine (palCopy_of_src (p := { p with pos := p.pos + 1 }) n h.below).trans ?_
  rw [hsrc]
  rfl

/-- A record that the control byte begins and that does not lie below len. -/
theorem palRecord_of_trunc (hlt : p.pos < k.len) (hhead : (k.buf.drop p.pos).head? = r.bytes.head?)
    (hlen : k.len < p.pos + r.bytes.length) : palRecord k p = .error .palTrunc := by
  rw [palRecord_of_head hlt hhead]
  cases r with
  | skip n => exact absurd hlen (Nat.not_lt.2 hlt)
  | copy n src => exact palCopy_of_trunc n (Nat.le_of_lt_succ hlen)
  | lit r6 g b => exact palLiteral_of_trunc r6 (Nat.le_of_lt_succ hlen)

theorem LiesAt.palRecord_of_overshoot (h : r.LiesAt k p.pos) (he : p.entry < 256) (hover : 256 < p.entry + r.span) :
    palRecord k p = .error .palOvershoot := by
  cases r with
  | skip n => exact h.palRecord_eq.trans (palSkip_of_overshoot hover)
  | copy n src => exact h.palRecord_copy.trans (if_pos hover)
  | lit r6 g b => exact absurd hover (Nat.not_lt.2 he)

theorem LiesAt.palRecord_of_range (h : r.LiesAt k p.pos) (hfits : p.entry + r.span ≤ 256) (hlegal : ¬ r.legal) :
    palRecord k p = .error .palCopyRange := by
  cases r with
  | skip n => exact absurd trivial hlegal
  | copy n src =>
    rw [h.palRecord_copy]
    exact (if_neg (Nat.not_lt.2 hfits)).trans (if_pos (Nat.not_le.1 hlegal))
  | lit r6 g b => exact absurd trivial hlegal

theorem LiesAt.palRecord_of_legal (h : r.LiesAt k p.pos) (hfits : p.entry + r.span ≤ 256) (hlegal : r.legal) :
    palRecord k p = .ok (r.after k.old p) := by
  cases r with
  | skip n => exact h.palRecord_eq.trans (palSkip_of_fits hfits)
  | copy n src =>
    rw [h.palRecord_copy]
    exact (if_neg (Nat.not_lt.2 hfits)).trans (if_neg (Nat.not_lt.2 hlegal))
  | lit r6 g b =>
    have hg : k.buf.getD (p.pos + 1) 0 = g := h.getD (i := 1) (show (1 : Nat) < 3 by decide)
    have hb : k.buf.getD (p.pos + 1 + 1) 0 = b := h.getD (i := 2) (show (2 : Nat) < 3 by decide)
    rw [h.palRecord_eq]
    refine (palLiteral_of_bytes (p := { p with pos := p.pos + 1 }) r6 h.below).trans ?_
    rw [hg, hb]
    rfl

end Record

/-! ### The entries after a record (R312 to R315) -/

/-- The entry `i` after a record, where PAL from the record's first entry on is still OLD. -/
theorem entryAt_after {old : Memory Rgb} {p : PalState} (r : PalRecord)
    (hold : ∀ i, p.entry ≤ i → entryAt p.pal i = entryAt old i) (i : Nat) :
    entryAt (r.after old p).pal i =
      if p.entry ≤ i ∧ i < p.entry + r.span then r.value (entryAt old) p.entry i else entryAt p.pal i := by
  cases r with
  | skip n =>
    change entryAt p.pal i = _
    split
    case isTrue h => exact hold i h.1
    case isFalse h => rfl
  | copy n src => exact entryAt_copyEntries _ _ _ _ _ _
  | lit r6 g b =>
    have hone : i = p.entry ↔ p.entry ≤ i ∧ i < p.entry + 1 := by omega
    change entryAt (p.pal.write p.entry (literalColour r6 g b)) i = _
    rw [entryAt_write, literalColour_eq]
    exact if_congr hone rfl rfl

end PalRecord

/-! ### A run of records (R310, R318) -/

/-- PAL, p and e after the records. -/
def afterRecords (old : Memory Rgb) : PalState → List PalRecord → PalState := List.foldl (PalRecord.after old)

section Records

variable {k : PalChunk} {old : Memory Rgb}

theorem afterRecords_pos : ∀ (rs : List PalRecord) (p : PalState),
    (afterRecords old p rs).pos = p.pos + (rs.flatMap PalRecord.bytes).length := by
  intro rs
  induction rs with
  | nil => intro p; rfl
  | cons r rs ih =>
    intro p
    rw [List.flatMap_cons, List.length_append, ← Nat.add_assoc]
    exact ih _

theorem afterRecords_entry : ∀ (rs : List PalRecord) (p : PalState),
    (afterRecords old p rs).entry = p.entry + (rs.map PalRecord.span).sum := by
  intro rs
  induction rs with
  | nil => intro p; rfl
  | cons r rs ih =>
    intro p
    rw [List.map_cons, List.sum_cons, ← Nat.add_assoc]
    exact ih _

theorem paletteAfter_of_le {old : Nat → Rgb} {i : Nat} : ∀ (rs : List PalRecord) {e : Nat},
    e + (rs.map PalRecord.span).sum ≤ i → paletteAfter old e i rs = old i := by
  intro rs
  induction rs with
  | nil => intro e _; rfl
  | cons r rs ih =>
    intro e h
    rw [List.map_cons, List.sum_cons] at h
    rw [paletteAfter, if_neg (by omega)]
    exact ih (by omega)

/-- Where PAL from e on is still OLD, the records give every entry from e on its value, and leave those below e. -/
theorem entryAt_afterRecords : ∀ (rs : List PalRecord) {p : PalState},
    (∀ i, p.entry ≤ i → entryAt p.pal i = entryAt old i) → ∀ i,
      entryAt (afterRecords old p rs).pal i =
        if p.entry ≤ i then paletteAfter (entryAt old) p.entry i rs else entryAt p.pal i := by
  intro rs
  induction rs with
  | nil =>
    intro p hold i
    change entryAt p.pal i = if p.entry ≤ i then entryAt old i else entryAt p.pal i
    split
    case isTrue h => exact hold i h
    case isFalse h => rfl
  | cons r rs ih =>
    intro p hold i
    have hentry : (r.after old p).entry = p.entry + r.span := rfl
    have hafter := r.entryAt_after hold
    have hold' : ∀ i, (r.after old p).entry ≤ i → entryAt (r.after old p).pal i = entryAt old i := fun i hi => by
      rw [hafter, if_neg (by omega), hold i (by omega)]
    change entryAt (afterRecords old (r.after old p) rs).pal i = _
    rw [ih hold' i, hafter, paletteAfter, hentry]
    rcases Nat.lt_or_ge i p.entry with hlow | hge
    · rw [if_neg (by omega), if_neg (by omega), if_neg (by omega)]
    · rcases Nat.lt_or_ge i (p.entry + r.span) with hin | hout
      · rw [if_neg (by omega), if_pos ⟨hge, hin⟩, if_pos hge, if_pos hin]
      · rw [if_pos hout, if_pos hge, if_neg (by omega)]

/-- Records that follow one another in the chunk below len. -/
theorem palLoop_of_records (n : Nat) : ∀ (rs : List PalRecord) {p : PalState},
    (∀ r ∈ rs, r.legal) → p.entry + (rs.map PalRecord.span).sum ≤ 256 →
    p.pos + (rs.flatMap PalRecord.bytes).length ≤ k.len → rs.flatMap PalRecord.bytes <+: k.buf.drop p.pos →
    palLoop k (rs.length + n) p = palLoop k n (afterRecords k.old p rs) := by
  intro rs
  induction rs with
  | nil => intro p _ _ _ _; rw [List.length_nil, Nat.zero_add]; rfl
  | cons r rs ih =>
    intro p hlegal hsum hbelow hbytes
    rw [List.map_cons, List.sum_cons] at hsum
    rw [List.flatMap_cons] at hbelow hbytes
    rw [List.length_append] at hbelow
    obtain ⟨hr, hrs⟩ := List.forall_mem_cons.1 hlegal
    have hpos := r.span_pos
    have hlies : r.LiesAt k p.pos := ⟨by omega, (List.prefix_append _ _).trans hbytes⟩
    have hrest : rs.flatMap PalRecord.bytes <+: k.buf.drop (p.pos + r.bytes.length) := by
      obtain ⟨tail, htail⟩ := hbytes
      rw [← List.drop_drop, ← htail, List.append_assoc, List.drop_left]
      exact List.prefix_append _ _
    rw [List.length_cons, Nat.add_right_comm, palLoop, if_pos (by omega), hlies.palRecord_of_legal (by omega) hr]
    exact ih hrs (by change p.entry + r.span + _ ≤ _; omega) (by change p.pos + r.bytes.length + _ ≤ _; omega) hrest

theorem palLoop_of_full {p : PalState} (h : 256 ≤ p.entry) : ∀ n, palLoop k n p = .ok p := by
  intro n
  cases n with
  | zero => rfl
  | succ n => exact if_neg (Nat.not_lt.2 h)

theorem palLoop_of_error {p : PalState} {cause : Cause} {n : Nat} (hn : n ≠ 0) (he : p.entry < 256)
    (h : palRecord k p = .error cause) : palLoop k n p = .error cause := by
  obtain ⟨m, rfl⟩ := Nat.exists_eq_succ_of_ne_zero hn
  rw [palLoop, if_pos he, h]
  rfl

/-- Every record moves e (R316). -/
theorem length_le_sum_span (rs : List PalRecord) : rs.length ≤ (rs.map PalRecord.span).sum := by
  induction rs with
  | nil => exact Nat.le_refl 0
  | cons r rs ih =>
    have hpos := r.span_pos
    rw [List.length_cons, List.map_cons, List.sum_cons]
    omega

end Records

/-! ### A whole chunk (R310) -/

/-- B[0] of an empty chunk, of 0, or of more than the chunk holds. -/
theorem palLength_of_short {chunk : List Byte}
    (h : chunk = [] ∨ chunk.head? = some 0 ∨ ∃ b, chunk.head? = some b ∧ chunk.length < 4 * b.toNat) :
    palLength chunk = .error .palLen := by
  cases chunk with
  | nil => rfl
  | cons b rest =>
    refine if_pos ?_
    rcases h with h | h | ⟨c, hc, hshort⟩
    · cases h
    · cases h; exact .inl rfl
    · cases hc; exact .inr hshort

theorem palLength_of_fits {b : Byte} {rest : List Byte} (hpos : 0 < 4 * b.toNat)
    (hfits : 4 * b.toNat ≤ (b :: rest).length) : palLength (b :: rest) = .ok (4 * b.toNat) :=
  if_neg (by omega)

/-- The chunk `b :: bytes` and what unpacking it into `pal` keeps fixed. -/
def wholeChunk (pal : Memory Rgb) (b : Byte) (bytes : List Byte) : PalChunk :=
  { buf := b :: bytes, len := 4 * b.toNat, old := pal }

/-- PAL, p and e at the first record. -/
def PalState.first (pal : Memory Rgb) : PalState := { pal := pal, pos := 1, entry := 0 }

section Chunk

variable {pal : Memory Rgb} {lenq : Byte} {rs : List PalRecord} {rest : List Byte}

/-- The legal records at the front of a chunk are unpacked, and the loop goes on after them. -/
theorem unpackPalette_of_records (hlegal : ∀ r ∈ rs, r.legal) (hsum : (rs.map PalRecord.span).sum ≤ 256)
    (hbelow : 1 + (rs.flatMap PalRecord.bytes).length ≤ 4 * lenq.toNat)
    (hfits : 4 * lenq.toNat ≤ (lenq :: (rs.flatMap PalRecord.bytes ++ rest)).length) :
    unpackPalette pal (lenq :: (rs.flatMap PalRecord.bytes ++ rest)) =
      (palLoop (wholeChunk pal lenq (rs.flatMap PalRecord.bytes ++ rest)) (256 - rs.length)
        (afterRecords pal (PalState.first pal) rs)).map fun q => (q.pal, 4 * lenq.toNat) := by
  have hlength := length_le_sum_span rs
  have hloop := palLoop_of_records (k := wholeChunk pal lenq (rs.flatMap PalRecord.bytes ++ rest)) (256 - rs.length)
    rs (p := PalState.first pal) hlegal ((Nat.zero_add _).trans_le hsum) hbelow (List.prefix_append _ _)
  rw [Nat.add_sub_cancel' (hlength.trans hsum)] at hloop
  rw [unpackPalette, palLength_of_fits (by omega) hfits]
  change (palLoop (wholeChunk pal lenq _) 256 (PalState.first pal) >>= fun q => .ok (q.pal, _)) = _
  rw [hloop]
  rfl

/-- The first record after legal ones raises, and the chunk ends with its cause. -/
theorem unpackPalette_of_record_error {cause : Cause} (hlegal : ∀ r ∈ rs, r.legal)
    (hsum : (rs.map PalRecord.span).sum < 256)
    (hbelow : 1 + (rs.flatMap PalRecord.bytes).length ≤ 4 * lenq.toNat)
    (hfits : 4 * lenq.toNat ≤ (lenq :: (rs.flatMap PalRecord.bytes ++ rest)).length)
    (herror : palRecord (wholeChunk pal lenq (rs.flatMap PalRecord.bytes ++ rest))
      (afterRecords pal (PalState.first pal) rs) = .error cause) :
    unpackPalette pal (lenq :: (rs.flatMap PalRecord.bytes ++ rest)) = .error cause := by
  have hlength := length_le_sum_span rs
  have hentry : (afterRecords pal (PalState.first pal) rs).entry < 256 := by
    rw [afterRecords_entry]
    exact (Nat.zero_add _).trans_lt hsum
  rw [unpackPalette_of_records hlegal hsum.le hbelow hfits, palLoop_of_error (by omega) hentry herror]
  rfl

/-- What is left of the chunk at the place the records end. -/
theorem drop_afterRecords_pos : (wholeChunk pal lenq (rs.flatMap PalRecord.bytes ++ rest)).buf.drop
    (afterRecords pal (PalState.first pal) rs).pos = rest := by
  rw [afterRecords_pos]
  change (lenq :: (rs.flatMap PalRecord.bytes ++ rest)).drop (1 + _) = rest
  rw [Nat.add_comm, List.drop_succ_cons, List.drop_left]

end Chunk

/-! ### The commands where the phase admits them (R310, R317) -/

section Commands

variable {s : State}

/-- The end of UNPACK_PALETTE with the new palette and CONSUMED. -/
def State.deliverPalette (s : State) (r : Memory Rgb × Nat) : State :=
  State.finish { s with pal := r.1, palDirty := true, consumed := BitVec.ofNat 32 r.2 }

theorem exec_unpackPalette (chunk : List Byte) (h : s.phase = .configured ∨ s.phase = .ready) :
    exec (.unpackPalette chunk) s = .next (s.orRaise (unpackPalette s.pal chunk) s.deliverPalette) := by
  change Host.Outcome.next (s.whenAdmitted s.phase.isOpen (s.orRaise _ s.deliverPalette)) = _
  rw [Phase.isOpen_of_configured_or_ready h, State.whenAdmitted_true]

/-- The command ends in FAILED with the cause that unpacking its chunk raises. -/
theorem exec_unpackPalette_error {chunk : List Byte} {cause : Cause} (hp : s.phase = .configured ∨ s.phase = .ready)
    (h : unpackPalette s.pal chunk = .error cause) :
    ∃ t, exec (.unpackPalette chunk) s = .next t ∧
      t.status = { code := cause.code, cause := cause } ∧ t.phase = .failed :=
  ⟨_, exec_unpackPalette chunk hp, s.orRaise_of_fatal _ h (unpackPalette_error h)⟩

theorem exec_ackPalette (h : s.phase = .configured ∨ s.phase = .ready) :
    exec .ackPalette s = .next (State.finish { s with palDirty := false }) := by
  change Host.Outcome.next (s.whenAdmitted s.phase.isOpen _) = _
  rw [Phase.isOpen_of_configured_or_ready h, State.whenAdmitted_true]

end Commands

end Sys2Proof.Machine

namespace Sys2Proof.Proofs

open Sys2Proof.Machine

/-- Settles O47: by whether e stays inside the palette. -/
theorem palSkipEffect : Obligations.PalSkipEffect := by
  refine fun n s => ⟨fun hfits => ?inside, fun hover => ?past⟩
  case inside =>
    change Host.Outcome.next (s.orRaise (palSkip n s.palState) s.withPal) = _
    rw [palSkip_of_fits (p := s.palState) hfits]
    rfl
  case past => exact ⟨_, rfl, s.orRaise_of_fatal _ (palSkip_of_overshoot (p := s.palState) hover) rfl⟩

/-- Settles O48: by the three errors in their order, then the copy. -/
theorem palCopyEffect : Obligations.PalCopyEffect := by
  intro n s
  refine ⟨_, rfl, ?_⟩
  split
  case isTrue htrunc => exact s.orRaise_of_fatal _ (palCopy_of_trunc (p := s.palState) n htrunc) rfl
  case isFalse hread =>
    have hcopy := palCopy_of_src (k := s.palChunk) (p := s.palState) n (Nat.not_le.1 hread)
    split
    case isTrue hover => exact s.orRaise_of_fatal _ (hcopy.trans (if_pos hover)) rfl
    case isFalse hfits =>
      replace hcopy := hcopy.trans (if_neg hfits)
      split
      case isTrue hrange => exact s.orRaise_of_fatal _ (hcopy.trans (if_pos hrange)) rfl
      case isFalse hinside =>
        rw [hcopy.trans (if_neg hinside), State.orRaise_ok]
        exact ⟨rfl, fun i => entryAt_copyEntries _ _ _ _ i _⟩

/-- Settles O49: by whether the literal's second byte lies below len. -/
theorem palLitEffect : Obligations.PalLitEffect := by
  intro r6 s
  refine ⟨_, rfl, ?_⟩
  split
  case isTrue htrunc => exact s.orRaise_of_fatal _ (palLiteral_of_trunc (p := s.palState) r6 htrunc) rfl
  case isFalse hread =>
    rw [palLiteral_of_bytes (p := s.palState) r6 (Nat.not_le.1 hread), State.orRaise_ok]
    refine ⟨rfl, fun i => ?_⟩
    rw [← literalColour_eq]
    exact entryAt_write _ _ _ _

/-- Settles O50: the loop stops where the records end, and PAL holds what they gave it. -/
theorem unpackPaletteEffect : Obligations.UnpackPaletteEffect := by
  intro lenq rs rest s hp hsum hlegal hbelow hfits
  have hfull : 256 ≤ (afterRecords s.pal (PalState.first s.pal) rs).entry := by
    rw [afterRecords_entry, hsum]
    exact Nat.le_add_left _ _
  have hunpack := unpackPalette_of_records (pal := s.pal) hlegal hsum.le hbelow hfits
  rw [palLoop_of_full hfull] at hunpack
  have hentries : ∀ i, entryAt (afterRecords s.pal (PalState.first s.pal) rs).pal i =
      paletteAfter (entryAt s.pal) 0 i rs := fun i =>
    (entryAt_afterRecords (p := PalState.first s.pal) rs (fun _ _ => rfl) i).trans (if_pos (Nat.zero_le i))
  have hexec := exec_unpackPalette (lenq :: (rs.flatMap PalRecord.bytes ++ rest)) hp
  rw [hunpack] at hexec
  refine ⟨_, hexec, rfl, fun i _ => hentries i, fun i hi => ?_⟩
  exact (hentries i).trans (paletteAfter_of_le rs (by rw [hsum, Nat.zero_add]; exact hi))

/-- Settles O51: the length by B[0], the others by the record at which the legal ones end. -/
theorem paletteLengthErrors : Obligations.PaletteLengthErrors := by
  refine ⟨fun chunk s hp hshort => ?length, fun lenq rs rest s hp hlegal hsum hbelow hfits => ?records⟩
  case length =>
    refine exec_unpackPalette_error (cause := .palLen) hp ?_
    rw [unpackPalette, palLength_of_short hshort]
    rfl
  case records =>
    have hends := fun {cause} herror => exec_unpackPalette_error (cause := cause) hp
      (unpackPalette_of_record_error hlegal hsum hbelow hfits herror)
    have hpos := afterRecords_pos (old := s.pal) rs (PalState.first s.pal)
    have hentry := (afterRecords_entry (old := s.pal) rs (PalState.first s.pal)).trans (Nat.zero_add _)
    have hdrop := drop_afterRecords_pos (pal := s.pal) (lenq := lenq) (rs := rs) (rest := rest)
    have hlies : ∀ r : PalRecord, 1 + (rs.flatMap PalRecord.bytes).length + r.bytes.length ≤ 4 * lenq.toNat →
        r.bytes <+: rest → r.LiesAt (wholeChunk s.pal lenq (rs.flatMap PalRecord.bytes ++ rest))
          (afterRecords s.pal (PalState.first s.pal) rs).pos := fun r hwhole hbytes =>
      ⟨(congrArg (· + _) hpos).trans_le hwhole, by rw [hdrop]; exact hbytes⟩
    refine ⟨fun hend => ?noControl, fun r hlt hhead hlen => ?cut, fun r hwhole hbytes =>
      ⟨fun hover => ?overshoot, fun hinside hillegal => ?range⟩⟩
    case noControl =>
      refine hends (cause := .palTrunc) ?_
      rw [palRecord, PalChunk.byte_of_le (hpos.trans hend).ge]
      rfl
    case cut =>
      exact hends (PalRecord.palRecord_of_trunc (hpos.trans_lt hlt) ((congrArg List.head? hdrop).trans hhead)
        (hlen.trans_eq (congrArg (· + _) hpos.symm)))
    case overshoot =>
      exact hends ((hlies r hwhole hbytes).palRecord_of_overshoot (hentry.trans_lt hsum) (hentry ▸ hover))
    case range => exact hends ((hlies r hwhole hbytes).palRecord_of_range (hentry ▸ hinside) hillegal)

/-- Settles O52: the two phases admit the command. -/
theorem ackPaletteEffect : Obligations.AckPaletteEffect := fun _ hp => exec_ackPalette hp

end Sys2Proof.Proofs
end

section
/-! PROOFS. DECODE_AUDIO by what its dispatch and its chunk answer (46_audio.md R341 to R343, R348, R351 to R353): the
dispatch table, the absent chunk, the two checks, the length of OUT, and independence: O53, O54 and O57 to O59. -/

namespace Sys2Proof.Machine

/-! ### The dispatch (R341) -/

section Dispatch

variable {g : Cfg} {track : BitVec 3} {info : Word}

theorem audioDispatch_no_track (h : g.audio[track.toNat]? = none) : audioDispatch g track = .error .badTrack := by
  rw [audioDispatch, Cfg.audioInfo, h]

theorem audioDispatch_no_audio (hinfo : g.audio[track.toNat]? = some info) (haudio : info.getLsbD 30 = false) :
    audioDispatch g track = .error .badTrack := by
  have hnone : infoHasAudio info = false := haudio
  simp [audioDispatch, Cfg.audioInfo, hinfo, hnone]

/-- A track that exists and is not DPCM: RDFT, else DCT, else not compressed. -/
theorem audioDispatch_not_dpcm (hinfo : g.audio[track.toNat]? = some info) (haudio : info.getLsbD 30 = true)
    (hdpcm : info.getLsbD 31 = false) :
    audioDispatch g track = .error (if info.getLsbD 27 then .unsupportedRdft
      else if info.getLsbD 26 then .unsupportedDct else .audioNotCompressed) := by
  have hsome : infoHasAudio info = true := haudio
  have hother : infoDpcm info = false := hdpcm
  rw [apply_ite Except.error, apply_ite Except.error]
  simp [audioDispatch, Cfg.audioInfo, hinfo, hsome, hother, infoRdft, infoDct]

/-- A track that is decoded is decoded as its audioInfo word says. -/
theorem audioDispatch_info {info' : Word} (h : audioDispatch g track = .ok info')
    (hinfo : g.audio[track.toNat]? = some info) : info' = info := by
  rw [audioDispatch, Cfg.audioInfo, hinfo] at h
  dsimp only at h
  split_ifs at h
  cases h
  rfl

/-- The seven tracks are 0 to 6. -/
theorem audio_track_seven (g : Cfg) : g.audio[(7#3).toNat]? = none := by simp

/-- The dispatch looks at nothing but AUDIO[TRACK]. -/
theorem audioDispatch_congr {g g' : Cfg} (h : g.audio[track.toNat]? = g'.audio[track.toNat]?) :
    audioDispatch g track = audioDispatch g' track := by
  rw [audioDispatch, audioDispatch, Cfg.audioInfo, Cfg.audioInfo, h]

end Dispatch

/-! ### What the command answers -/

/-- What DECODE_AUDIO makes of its operands and its track: the audioInfo word and the samples, or a cause. -/
def audioAnswer (g : Cfg) (track : BitVec 3) (chunk : List Byte) (unpacked : Nat) :
    Except Cause (Word × Option (List Sample)) := do
  let info ← audioDispatch g track
  let r ← decodeChunk info unpacked chunk
  pure (info, r)

section Answer

variable {track : BitVec 3} {chunk : List Byte} {unpacked : Nat}

/-- In a phase that admits it, the command ends as its answer says. -/
theorem exec_decodeAudio_answer {s : State} (track : BitVec 3) (chunk : List Byte) (unpacked : Word)
    (hp : s.phase = .configured ∨ s.phase = .ready) :
    exec (.decodeAudio track chunk unpacked) s =
      .next (s.orRaise (audioAnswer s.cfg track chunk unpacked.toNat) fun r => s.deliverChunk r.1 r.2) := by
  cases hdispatch : audioDispatch s.cfg track with
  | ok info =>
    rw [exec_decodeAudio chunk unpacked hp hdispatch, audioAnswer, hdispatch]
    cases hchunk : decodeChunk info unpacked.toNat chunk <;> simp only [bind, Except.bind, hchunk] <;> rfl
  | error cause =>
    have hopen : s.phase.isOpen = true := by rcases hp with hp | hp <;> rw [hp] <;> rfl
    change execDecodeAudio track chunk unpacked s = _
    rw [execDecodeAudio, hopen, State.whenAdmitted_true, State.decodeAudio, audioAnswer, hdispatch]
    rfl

theorem audioAnswer_ok {g : Cfg} {r : Word × Option (List Sample)} (h : audioAnswer g track chunk unpacked = .ok r) :
    audioDispatch g track = .ok r.1 ∧ decodeChunk r.1 unpacked chunk = .ok r.2 := by
  obtain ⟨info, hdispatch, h⟩ := bind_ok h
  obtain ⟨samples, hchunk, h⟩ := bind_ok h
  cases h
  exact ⟨hdispatch, hchunk⟩

/-- A command that raises does not end OK. -/
theorem audioAnswer_error {g : Cfg} {cause : Cause} (h : audioAnswer g track chunk unpacked = .error cause) :
    cause.code ≠ .ok := by
  rcases bind_error h with hdispatch | ⟨info, _, h⟩
  · rcases audioDispatch_error hdispatch with rfl | rfl | rfl | rfl <;> exact nofun
  rcases bind_error h with hchunk | ⟨_, _, h⟩
  · intro hok
    have hfatal := decodeChunk_error hchunk
    rw [hok] at hfatal
    cases hfatal
  · cases h

theorem audioAnswer_congr {g g' : Cfg} (chunk : List Byte) (unpacked : Nat)
    (h : g.audio[track.toNat]? = g'.audio[track.toNat]?) :
    audioAnswer g track chunk unpacked = audioAnswer g' track chunk unpacked := by
  rw [audioAnswer, audioAnswer, audioDispatch_congr h]

/-- A command that ended OK delivered what its answer holds. -/
theorem exec_decodeAudio_ok {s t : State} {unpacked : Word} (hp : s.phase = .configured ∨ s.phase = .ready)
    (hexec : exec (.decodeAudio track chunk unpacked) s = .next t) (hok : t.status.code = .ok) :
    ∃ info r, audioAnswer s.cfg track chunk unpacked.toNat = .ok (info, r) ∧ t = s.deliverChunk info r := by
  rw [exec_decodeAudio_answer track chunk unpacked hp] at hexec
  obtain rfl := Host.Outcome.next.inj hexec
  rcases s.orRaise_cases (audioAnswer s.cfg track chunk unpacked.toNat) fun r => s.deliverChunk r.1 r.2 with
    ⟨⟨info, r⟩, hr, h⟩ | ⟨cause, hr, h⟩
  · exact ⟨info, r, hr, h⟩
  · rw [h, State.raise_status] at hok
    exact absurd hok (audioAnswer_error hr)

/-- A cause of the dispatch changes STATUS and empties the port. -/
theorem exec_decodeAudio_refused {s : State} {cause : Cause} (chunk : List Byte) (unpacked : Word)
    (hp : s.phase = .configured ∨ s.phase = .ready) (h : audioDispatch s.cfg track = .error cause) :
    exec (.decodeAudio track chunk unpacked) s = .next (s.report cause) := by
  have hsoft : cause.code.fatal = false := by rcases audioDispatch_error h with rfl | rfl | rfl | rfl <;> rfl
  have hanswer : audioAnswer s.cfg track chunk unpacked.toNat = .error cause := by
    rw [audioAnswer, h]
    rfl
  rw [exec_decodeAudio_answer track chunk unpacked hp, hanswer, State.orRaise_error, s.raise_soft hsoft]

end Answer

/-! ### The end of a chunk -/

section Deliver

variable (s : State) (info : Word) (r : Option (List Sample))

theorem State.deliverChunk_status : (s.deliverChunk info r).status = Status.of .none := by cases r <;> rfl

theorem State.deliverChunk_out : (s.deliverChunk info r).out = r.getD [] := by cases r <;> rfl

/-- The end of a chunk writes the command's own results, and the working state is gone. -/
theorem State.deliverChunk_frame :
    s.deliverChunk info r =
      { s with
        out := (s.deliverChunk info r).out, outRate := (s.deliverChunk info r).outRate
        status := (s.deliverChunk info r).status, port := none, work := Work.idle } := by
  cases r <;> rfl

end Deliver

/-! ### The configuration bits and the checks (R342, R343, R351) -/

/-- The first eight stream bits are the first byte's, and zeros where there is none. -/
theorem Cursor.over_bit (buf : List Byte) {i : Nat} (hi : i < 8) :
    (Cursor.over buf).bit i = (buf.getD 0 0).getLsbD i := by
  cases buf with
  | nil => simp [Cursor.empty_bit]
  | cons b rest =>
    have hlen : i < 8 * (Cursor.over (b :: rest)).len := by
      rw [Cursor.len, Cursor.over, List.length_cons]
      omega
    rw [Cursor.bit, if_pos hlen, Nat.div_eq_of_lt hi, Nat.mod_eq_of_lt hi]
    rfl

theorem decodeChunk_absent {chunk : List Byte} (info : Word) (unpacked : Nat) (h : (Cursor.over chunk).bit 0 = false) :
    decodeChunk info unpacked chunk = .ok none := by
  have hbit : ¬ (audioStart chunk).cur.readBit.1 = true := fun hset => Bool.false_ne_true (h.symm.trans hset)
  rw [decodeChunk, if_neg hbit]

/-- The format that a chunk's first byte says. -/
def chunkFormat (chunk : List Byte) : AudioFormat :=
  { st := (chunk.getD 0 0).getLsbD 1, b16 := (chunk.getD 0 0).getLsbD 2 }

/-- A chunk with data is decoded in the format of its first byte, from its fourth bit. -/
theorem decodeChunk_of_body {chunk : List Byte} (info : Word) (unpacked : Nat)
    (h : (chunk.getD 0 0).getLsbD 0 = true) :
    decodeChunk info unpacked chunk =
      (audioBody info unpacked (chunkFormat chunk) { audioStart chunk with cur := (Cursor.over chunk).skip 3 }).map
        fun r => some r.samples := by
  have hbits := audioPresent_of_bits (info := info) (unpacked := unpacked)
    (a := { audioStart chunk with cur := (Cursor.over chunk).skip 1 })
    (Cursor.over_bit chunk (i := 1) (by decide)) (Cursor.over_bit chunk (i := 2) (by decide))
  rw [decodeChunk_present ((Cursor.over_bit chunk (by decide)).trans h), hbits, Cursor.skip_skip]
  rfl

section Body

variable {info : Word} {unpacked : Nat} {f : AudioFormat} {a : AudioState}

theorem audioBody_config (h : f.st ≠ infoIsStereo info ∨ f.b16 ≠ infoIs16Bit info) :
    audioBody info unpacked f a = .error .audioConfig := if_pos h

theorem audioBody_size (hst : f.st = infoIsStereo info) (hb16 : f.b16 = infoIs16Bit info)
    (h : unpacked < f.planes ∨ unpacked % f.planes ≠ 0) : audioBody info unpacked f a = .error .audioSize := by
  have hsize : sizeFits f unpacked = false := by
    rw [sizeFits, Bool.and_eq_false_iff, decide_eq_false_iff_not, beq_eq_false_iff_ne, Nat.not_le]
    exact h
  rw [audioBody, if_neg (by simp [hst, hb16]), if_pos hsize]

end Body

/-- A chunk that fails one of its checks ends the command in FAILED. -/
theorem exec_decodeAudio_body_error {track : BitVec 3} {chunk : List Byte} {unpacked info : Word} {s : State}
    {cause : Cause} (hp : s.phase = .configured ∨ s.phase = .ready) (hdispatch : audioDispatch s.cfg track = .ok info)
    (hpresent : (chunk.getD 0 0).getLsbD 0 = true)
    (h : audioBody info unpacked.toNat (chunkFormat chunk)
      { audioStart chunk with cur := (Cursor.over chunk).skip 3 } = .error cause) :
    ∃ t, exec (.decodeAudio track chunk unpacked) s = .next t ∧
      t.status = { code := cause.code, cause := cause } ∧ t.phase = .failed := by
  have hchunk : decodeChunk info unpacked.toNat chunk = .error cause := by
    rw [decodeChunk_of_body info unpacked.toNat hpresent, h]
    rfl
  exact ⟨_, exec_decodeAudio chunk unpacked hp hdispatch, s.orRaise_of_fatal _ hchunk (audioBody_error h)⟩

/-! ### The number of samples (R348, R352) -/

/-- OUT holds `n` samples, each of the format's width. -/
structure AudioState.Emitted (f : AudioFormat) (n : Nat) (a : AudioState) : Prop where
  length : a.samples.length = n
  sizes : ∀ x ∈ a.samples, Sample.size x = f.bytes

section Emitted

variable {f : AudioFormat} {n : Nat} {a : AudioState}

theorem toSample_size (f : AudioFormat) (base : Half) : Sample.size (toSample f.b16 base) = f.bytes := by
  unfold toSample AudioFormat.bytes
  cases f.b16 <;> rfl

theorem AudioState.Emitted.emit (h : a.Emitted f n) (base : Half) :
    (emit f (toSample f.b16 base) a).Emitted f (n + 1) where
  length := by simp [Machine.emit, h.length]
  sizes x hx := by
    rcases List.mem_append.1 hx with hx | hx
    · exact h.sizes x hx
    · rw [List.mem_singleton.1 hx, toSample_size]

/-- A frame emits one sample per channel. -/
theorem AudioState.Emitted.emitFrame (h : a.Emitted f n) : (emitFrame f a).Emitted f (n + f.channels) := by
  unfold Machine.emitFrame AudioFormat.channels
  cases f.st with
  | true => exact (h.emit a.base0).emit a.base1
  | false => exact h.emit a.base0

theorem AudioState.Emitted.deltaFrame (h : a.Emitted f n) (planes : List ByteTree) :
    (deltaFrame f planes a).Emitted f (n + f.channels) := by
  unfold Machine.deltaFrame
  dsimp only
  split <;> exact AudioState.Emitted.emitFrame ⟨h.length, h.sizes⟩

theorem AudioState.Emitted.deltaFrames (planes : List ByteTree) : ∀ (m : Nat) {n : Nat} {a : AudioState},
    a.Emitted f n → (deltaFrames f planes m a).Emitted f (n + m * f.channels)
  | 0, n, a, h => by simpa [Machine.deltaFrames] using h
  | m + 1, n, a, h => by
    have hrest := AudioState.Emitted.deltaFrames planes m (h.deltaFrame planes)
    rwa [Nat.add_assoc, Nat.add_comm f.channels, ← Nat.succ_mul] at hrest

theorem AudioState.Emitted.readBases (h : a.Emitted f n) : (readBases f a).Emitted f n := by
  have hsame : (Machine.readBases f a).samples = a.samples := by
    unfold Machine.readBases
    split <;> rfl
  exact ⟨hsame ▸ h.length, hsame ▸ h.sizes⟩

theorem AudioFormat.planes_pos (f : AudioFormat) : 0 < f.planes :=
  Nat.mul_pos (Nat.succ_pos _) (Nat.succ_pos _)

/-- A body that is decoded passed its checks, and emitted one frame per NP bytes of UNPACKED. -/
theorem audioBody_ok {info : Word} {unpacked : Nat} {r : AudioState} (h : audioBody info unpacked f a = .ok r)
    (hstart : a.samples = []) :
    f.b16 = infoIs16Bit info ∧ f.planes ∣ unpacked ∧ r.Emitted f (unpacked / f.planes * f.channels) := by
  unfold audioBody at h
  split_ifs at h with hconfig hsize
  obtain ⟨⟨planes, c⟩, _, h⟩ := bind_ok h
  dsimp only at h
  split_ifs at h with hovr
  cases h
  obtain ⟨hle, hmod⟩ : f.planes ≤ unpacked ∧ unpacked % f.planes = 0 := by simpa [sizeFits] using hsize
  have hframes : 1 ≤ unpacked / f.planes := (Nat.one_le_div_iff f.planes_pos).2 hle
  have hnone : AudioState.Emitted f 0 { a with cur := c } := ⟨by simp [hstart], by simp [hstart]⟩
  have hall := AudioState.Emitted.deltaFrames planes (unpacked / f.planes - 1) hnone.readBases.emitFrame
  rw [Nat.zero_add, Nat.add_comm, ← Nat.succ_mul, Nat.succ_eq_add_one, Nat.sub_add_cancel hframes] at hall
  exact ⟨not_not.1 fun hb16 => hconfig (.inr hb16), Nat.dvd_of_mod_eq_zero hmod, hall⟩

end Emitted

/-- The order of the two bytes does not change their number. -/
theorem Sample.bytes_length (x : Sample) : (Sample.bytes x).length = Sample.size x := by
  cases x with
  | s8 v => rfl
  | s16 v => unfold Sample.bytes; cases Config.pcm16OutOrder <;> rfl

theorem outBytes_length {out : List Sample} {k : Nat} (h : ∀ x ∈ out, Sample.size x = k) :
    (outBytes out).length = out.length * k := by
  have hsizes : out.map (fun x => (Sample.bytes x).length) = out.map fun _ => k :=
    List.map_congr_left fun x hx => (Sample.bytes_length x).trans (h x hx)
  rw [outBytes, List.length_flatMap, hsizes, List.map_const', List.sum_replicate, smul_eq_mul]

/-- What a chunk with data decodes to: UNPACKED div bps samples of bps bytes each. -/
theorem decodeChunk_length {info : Word} {unpacked : Nat} {chunk : List Byte} {r : Option (List Sample)}
    (h : decodeChunk info unpacked chunk = .ok r) (hpresent : (chunk.getD 0 0).getLsbD 0 = true) :
    (r.getD []).length = unpacked / (if info.getLsbD 29 then 2 else 1) ∧ (outBytes (r.getD [])).length = unpacked := by
  rw [decodeChunk_of_body info unpacked hpresent] at h
  cases hbody : audioBody info unpacked (chunkFormat chunk)
      { audioStart chunk with cur := (Cursor.over chunk).skip 3 } with
  | error cause => rw [hbody] at h; cases h
  | ok a =>
    rw [hbody] at h
    cases h
    obtain ⟨hb16, ⟨m, rfl⟩, hlength, hsizes⟩ := audioBody_ok hbody rfl
    have hbytes : (chunkFormat chunk).bytes = if info.getLsbD 29 then 2 else 1 := by
      rw [AudioFormat.bytes, hb16, infoIs16Bit]
      cases info.getLsbD 29 <;> rfl
    have hpos : 0 < (chunkFormat chunk).bytes := Nat.succ_pos _
    rw [Nat.mul_div_cancel_left _ (chunkFormat chunk).planes_pos] at hlength
    rw [← hbytes, Option.getD_some, outBytes_length hsizes, hlength, AudioFormat.planes]
    refine ⟨(Nat.div_eq_of_eq_mul_left hpos ?_).symm, ?_⟩ <;> ring

end Sys2Proof.Machine

namespace Sys2Proof.Proofs

open Sys2Proof.Machine

/-- Settles O53: each row of the table is a cause of the dispatch, and none of those is fatal. -/
theorem audioDispatchTable : Obligations.AudioDispatchTable := by
  intro track chunk unpacked s hp
  refine ⟨fun htrack => ?seven, fun info hinfo => ⟨fun haudio => ?absent, fun haudio hdpcm => ?compression⟩⟩
  case seven =>
    subst htrack
    exact exec_decodeAudio_refused chunk unpacked hp (audioDispatch_no_track (audio_track_seven s.cfg))
  case absent => exact exec_decodeAudio_refused chunk unpacked hp (audioDispatch_no_audio hinfo haudio)
  case compression =>
    have hends := exec_decodeAudio_refused chunk unpacked hp (audioDispatch_not_dpcm hinfo haudio hdpcm)
    refine ⟨fun hrdft => ?_, fun hrdft hdct => ?_, fun hrdft hdct => ?_⟩
    · rw [hends, hrdft]; rfl
    · rw [hends, hrdft, hdct]; rfl
    · rw [hends, hrdft, hdct]; rfl

/-- Settles O54: the first stream bit is the first byte's, and 0 where there is no byte. -/
theorem absentAudio : Obligations.AbsentAudio := by
  intro track chunk unpacked info s hp hinfo haudio hdpcm habsent
  have hbit : (Cursor.over chunk).bit 0 = false := (Cursor.over_bit chunk (by decide)).trans habsent
  rw [exec_decodeAudio chunk unpacked hp (audioDispatch_ok hinfo haudio hdpcm), decodeChunk_absent _ _ hbit]
  rfl

/-- Settles O57: the two checks of the body, the configuration first. -/
theorem audioChecks : Obligations.AudioChecks := by
  intro track chunk unpacked info s hp hinfo haudio hdpcm hpresent
  have hdispatch := audioDispatch_ok hinfo haudio hdpcm
  refine ⟨fun hconfig => ?config, fun hst hb16 hsize => ?size⟩
  case config => exact exec_decodeAudio_body_error hp hdispatch hpresent (audioBody_config hconfig)
  case size =>
    have hmisfit : unpacked.toNat < (chunkFormat chunk).planes ∨ unpacked.toNat % (chunkFormat chunk).planes ≠ 0 := by
      rw [AudioFormat.planes_eq]
      exact hsize
    exact exec_decodeAudio_body_error hp hdispatch hpresent (audioBody_size hst hb16 hmisfit)

/-- Settles O58: every frame emits one sample of bps bytes per channel. -/
theorem audioOutputLength : Obligations.AudioOutputLength := by
  intro track chunk unpacked info s t hp hinfo hpresent hexec hok
  obtain ⟨info', r, hanswer, rfl⟩ := exec_decodeAudio_ok hp hexec hok
  obtain ⟨hdispatch, hchunk⟩ := audioAnswer_ok hanswer
  obtain rfl : info' = info := audioDispatch_info hdispatch hinfo
  rw [State.deliverChunk_out]
  exact decodeChunk_length hchunk hpresent

/-- Settles O59: both commands have one answer, and a delivery writes nothing but the command's own results. -/
theorem audioIsIndependent : Obligations.AudioIsIndependent := by
  intro track chunk unpacked s s' t t' hp hp' hinfo hexec hexec'
  refine ⟨?status, fun hok => ?ok⟩
  case status =>
    rw [exec_decodeAudio_answer track chunk unpacked hp, audioAnswer_congr _ _ hinfo] at hexec
    rw [exec_decodeAudio_answer track chunk unpacked hp'] at hexec'
    obtain rfl := Host.Outcome.next.inj hexec
    obtain rfl := Host.Outcome.next.inj hexec'
    cases audioAnswer s'.cfg track chunk unpacked.toNat with
    | ok r => exact (State.deliverChunk_status ..).trans (State.deliverChunk_status ..).symm
    | error cause => exact (s.raise_status cause).trans (s'.raise_status cause).symm
  case ok =>
    obtain ⟨info, r, hanswer, rfl⟩ := exec_decodeAudio_ok hp hexec hok
    rw [exec_decodeAudio_answer track chunk unpacked hp', ← audioAnswer_congr _ _ hinfo, hanswer] at hexec'
    obtain rfl := Host.Outcome.next.inj hexec'
    refine ⟨?_, s.deliverChunk_frame info r⟩
    exact (s.deliverChunk_out info r).trans (s'.deliverChunk_out info r).symm

end Sys2Proof.Proofs
end

section
/-! PROOFS. How a host command ends (60_exceptions.md R400 to R405), and FAILED, which no command leaves (R402,
30_encoding.md R94, R95): O8 and O9. -/

namespace Sys2Proof.Machine

/-! ### The two ends of a command -/

/-- `s.EndsAs t`: a command issued in `s` ends in `t`, either completed or raised. A refusal is a raise of a class that
is not fatal. -/
inductive State.EndsAs (s : State) : State → Prop where
  | completed (u : State) : s.EndsAs u.finish
  | raised (cause : Cause) : s.EndsAs (s.raise cause)

section Ends

variable {s t : State}

theorem State.EndsAs.report {cause : Cause} (h : cause.code.fatal = false) : s.EndsAs (s.report cause) :=
  s.raise_soft h ▸ .raised cause

theorem State.EndsAs.whenAdmitted {admitted : Bool} {run : State} (h : s.EndsAs run) :
    s.EndsAs (s.whenAdmitted admitted run) := by
  cases admitted with
  | false => exact .report rfl
  | true => exact h

theorem State.EndsAs.orRaise {α : Type} {r : Except Cause α} {k : α → State} (h : ∀ v, s.EndsAs (k v)) :
    s.EndsAs (s.orRaise r k) := by
  cases r with
  | ok v => exact h v
  | error cause => exact .raised cause

theorem State.EndsAs.nextRect : s.EndsAs s.nextRect := by
  unfold State.nextRect
  split
  · exact .completed _
  · exact .completed _

/-- Every host command comes to one of the two ends. -/
theorem exec_endsAs {i : Instr} (hi : isCommand i = true) (ht : exec i s = .next t) : s.EndsAs t := by
  cases i
  case configure ops =>
    cases ht
    cases subVerOf ops.sig with
    | none => exact .whenAdmitted (.raised .badSignature)
    | some sv => exact .whenAdmitted (.completed _)
  case buildTrees blob =>
    cases ht
    exact .whenAdmitted (.orRaise fun wt => .completed _)
  case decodeFrame vid =>
    cases ht
    exact .whenAdmitted (.orRaise fun f => .completed _)
  case unpackPalette chunk =>
    cases ht
    exact .whenAdmitted (.orRaise fun r => .completed _)
  case decodeAudio track chunk unpacked =>
    cases ht
    refine .whenAdmitted (.orRaise fun info => .orRaise fun r => ?_)
    cases r with
    | none => exact .completed _
    | some samples => exact .completed _
  case getDirtyRect =>
    cases ht
    exact .whenAdmitted .nextRect
  case ackPalette =>
    cases ht
    exact .whenAdmitted (.completed _)
  case reservedCmd cmd =>
    cases ht
    exact .report rfl
  all_goals cases hi

/-! ### What an end leaves -/

theorem State.EndsAs.port (h : s.EndsAs t) : t.port = none := by
  cases h with
  | completed u => rfl
  | raised cause => exact s.raise_port cause

theorem State.EndsAs.classed (h : s.EndsAs t) : t.status.code = t.status.cause.code := by
  cases h with
  | completed u => rfl
  | raised cause => rw [s.raise_status]; rfl

/-- A class other than OK comes of a raise, of the cause STATUS names. -/
theorem State.EndsAs.eq_raise (h : s.EndsAs t) (hne : t.status.code ≠ .ok) : t = s.raise t.status.cause := by
  cases h with
  | completed u => exact absurd rfl hne
  | raised cause => rw [s.raise_status]; rfl

/-- An end of a class that is not fatal changes nothing but STATUS (R403 to R405). -/
theorem State.EndsAs.eq_of_soft (h : s.EndsAs t) (hne : t.status.code ≠ .ok) (hsoft : t.status.code.fatal = false) :
    t = { s with status := t.status, port := none } := by
  have hreport : t = s.report t.status.cause := by
    rw [h.classed] at hsoft
    exact (h.eq_raise hne).trans (s.raise_soft hsoft)
  rw [hreport]
  rfl

/-- An end of a fatal class leads to FAILED and delivers no result field (R400, R402). -/
theorem State.EndsAs.failed_of_fatal (h : s.EndsAs t) (hfatal : t.status.code.fatal = true) :
    t.phase = .failed ∧ t.cfg = s.cfg ∧ t.consumed = s.consumed ∧ t.rect = s.rect ∧ t.out = s.out := by
  have hne : t.status.code ≠ .ok := fun hok => by rw [hok] at hfatal; cases hfatal
  rw [h.classed] at hfatal
  rw [h.eq_raise hne]
  exact ⟨s.raise_phase_of_fatal hfatal, s.raise_cfg _, s.raise_consumed _, s.raise_rect _, s.raise_out _⟩

end Ends

/-! ### FAILED -/

/-- Without the reset input a step at the port does nothing, or executes the command found there. -/
theorem step_cases_of_command {s t : State} (hr : s.resetPin = false) (hx : s.expect = .command)
    (h : step s = .next t) : t = s ∨ ∃ c, exec (decodeCommand c) s = .next t := by
  rcases fetch_cases_of_command hx with hidle | ⟨c, hfound⟩
  · rw [step_idle hr hidle] at h
    cases h
    exact .inl rfl
  · rw [step_found hr hfound, State.taken_of_command hx, execEncoded_of_decode rfl, execWellFormed] at h
    split at h
    · exact .inr ⟨c, h⟩
    · cases h

/-- A host command has a row in the admission table, which refuses it in FAILED, or its word is reserved. -/
theorem admission_failed_or_reserved {i : Instr} (hi : isCommand i = true) :
    (∃ a, admission i = some a ∧ a.holds .failed = false) ∨ ∃ cmd, i = .reservedCmd cmd := by
  cases i
  case configure | buildTrees | decodeFrame | unpackPalette | decodeAudio | getDirtyRect | ackPalette =>
    exact .inl ⟨_, rfl, rfl⟩
  case reservedCmd cmd => exact .inr ⟨cmd, rfl⟩
  all_goals cases hi

end Sys2Proof.Machine

namespace Sys2Proof.Proofs

open Sys2Proof.Machine

/-- Settles O8: by the end the command comes to, and whether the class it ends with is fatal. -/
theorem howCommandsEnd : Obligations.HowCommandsEnd := by
  intro i s t hi ht
  have hends := exec_endsAs hi ht
  refine ⟨hends.classed, hends.port, fun hsoft => ?soft, fun hfatal => ?fatal⟩
  case soft => rcases hsoft with h | h | h <;> exact hends.eq_of_soft (by rw [h]; exact nofun) (by rw [h]; rfl)
  case fatal => rcases hfatal with h | h <;> exact hends.failed_of_fatal (by rw [h]; rfl)

/-- In FAILED a host command is refused: for its phase, or because its word is reserved. -/
theorem exec_of_failed {i : Instr} {s : State} (hi : isCommand i = true) (hp : s.phase = .failed) :
    exec i s = .next (s.report .wrongPhase) ∨ exec i s = .next (s.report .illegalCommand) := by
  rcases admission_failed_or_reserved hi with ⟨a, ha, hrefuses⟩ | ⟨cmd, rfl⟩
  · exact .inl ((phaseAdmission i a s ha).1 (by rw [hp]; exact hrefuses))
  · exact .inr (exec_reservedCmd cmd s)

/-- Settles O9: the step does nothing, or executes a host command, which FAILED refuses. -/
theorem failedIsLeftOnlyByReset : Obligations.FailedIsLeftOnlyByReset := by
  intro s t hp hx hr hstep
  rcases step_cases_of_command hr hx hstep with rfl | ⟨c, hexec⟩
  · exact .inl rfl
  · rcases exec_of_failed (isCommand_decodeCommand c) hp with h | h
    · rw [h] at hexec
      cases hexec
      exact .inr (.inl rfl)
    · rw [h] at hexec
      cases hexec
      exact .inr (.inr rfl)

end Sys2Proof.Proofs
end
